-- ==== Sys2Proof/Word.lean ====
section
/-! DEFINITION. The word types of the unit, by the widths of spec R5, R50, R15 to R18, R32, R34. -/

namespace Sys2Proof

/-- A 4-bit field: `OP`, `LEN`, or one digit nibble (R50). -/
abbrev Nibble := BitVec 4

/-- A request word, format Q: exactly 60 bits (R50). -/
abbrev RequestWord := BitVec 60

/-- The register `LABEL`: 13 nibbles, digit position 0 the most significant (R17). -/
abbrev LabelWord := BitVec 52

/-- The register `MOD`: 95 modules, module 0 the most significant bit (R18). -/
abbrev ModWord := BitVec 95

/-- A row of the parity ROM as `rowbits[5:0]`, selector `k` at bit `5 - k` (R32). -/
abbrev ParityRow := BitVec 6

/-- An entry of the pattern ROM as `pbits[6:0]`, module `j` at bit `6 - j` (R34). -/
abbrev PatternEntry := BitVec 7

/-- A decimal digit 0 to 9 (R5 `DIGIT_MAX`). -/
abbrev Digit := Fin 10

/-- The 13 operand digit latches `d[0..12]`, 4 bits each, digit or not (R11). -/
abbrev Latches := Vector Nibble 13

/-- The digits of a code given without its check digit, `NDIG_SHORT` of them (R5). -/
abbrev Digits12 := Vector Digit 12

/-- A complete code, `NDIG` digits, each 0 to 9 (R5, R71, R90). -/
abbrev Code := Vector Digit 13

end Sys2Proof
end

