-- ==== Sys2Proof/Syntax.lean ====
section
/-! DEFINITION. The instructions: one constructor per row of `spec/opcode_table.json` (R53). Each carries the
digit count `n` (R52) and the 13 operand nibbles (R51), at every value their fields admit. -/

namespace Sys2Proof

/-- A request with an assigned operation code (R53). -/
inductive Instr where
  /-- `ENC`, `OP = 0x1` (R110). -/
  | enc (n : Nibble) (d : Latches)
  /-- `MAP`, `OP = 0x2` (R99). -/
  | map (n : Nibble) (d : Latches)
  /-- `CHK`, `OP = 0x3` (R77). -/
  | chk (n : Nibble) (d : Latches)
  /-- `VFY`, `OP = 0x4` (R78). -/
  | vfy (n : Nibble) (d : Latches)
  deriving DecidableEq, Repr

/-- The digit count operand `n` (R52). -/
def Instr.count : Instr → Nibble
  | .enc n _ => n
  | .map n _ => n
  | .chk n _ => n
  | .vfy n _ => n

/-- The 13 digit nibbles (R51). -/
def Instr.digits : Instr → Latches
  | .enc _ d => d
  | .map _ d => d
  | .chk _ d => d
  | .vfy _ d => d

end Sys2Proof
end

