-- ==== Sys2Proof/WellFormed.lean ====
section
/-! DEFINITION. Which instructions carry a well-formed input, in the source's sense: an accepted digit count
(R59, R71) and only decimal digits among the first `n` nibbles (R57, R70). Every `Instr` has an encoding and
every one of them runs: one that is not well-formed ends with `InvalidInput` (R121). The checks here are written
apart from the ones the meanings make, so that a statement can compare the two. -/

namespace Sys2Proof

/-- Is the count accepted by the operation: 12 or 13 for ENC, 13 for MAP and VFY, 12 for CHK (R53, R59)? -/
def Instr.countAccepted : Instr → Bool
  | .enc n _ => n.toNat == 12 || n.toNat == 13
  | .map n _ => n.toNat == 13
  | .chk n _ => n.toNat == 12
  | .vfy n _ => n.toNat == 13

/-- Is every nibble at a position below the count a decimal digit (R57, R70)? -/
def Instr.digitsInRange (i : Instr) : Bool :=
  decide (∀ p : Fin 13, p.val < i.count.toNat → i.digits[p].toNat ≤ 9)

/-- Both input checks of source step 1 (R70, R71). -/
def Instr.wellFormed (i : Instr) : Bool := i.countAccepted && i.digitsInRange

end Sys2Proof
end

