-- ==== Sys2Proof/Decode.lean ====
section
/-! DEFINITION. Decoding a request word, total on all 2^60 words and rejecting reserved operation codes by name,
and the encoder (R50 to R53, R58, R60). -/

namespace Sys2Proof

/-- `OP = req[59:56]` (R50). -/
def opField (req : RequestWord) : Nibble := req.extractLsb' 56 4

/-- `LEN = req[55:52]` (R50, R52). -/
def lenField (req : RequestWord) : Nibble := req.extractLsb' 52 4

/-- The latches as a transaction loads them: `d[i] <- req[51-4*i : 48-4*i]` (R51). -/
def loadLatches (req : RequestWord) : Latches :=
  Vector.ofFn fun i : Fin 13 => req.extractLsb' (48 - 4 * i.val) 4

/-- What a request word selects. -/
inductive Decoded where
  /-- An operation of the opcode table with its operands. -/
  | instr (i : Instr)
  /-- A reserved operation code, 0x0 or 0x5 to 0xF: no operation (R58). -/
  | reservedOp (op : Nibble)
  deriving DecidableEq, Repr

/-- The operation map of R53: only `OP` selects. `LEN` and the digit nibbles are checked by the operation. -/
def decode (req : RequestWord) : Decoded :=
  if opField req = 0x1#4 then .instr (.enc (lenField req) (loadLatches req))
  else if opField req = 0x2#4 then .instr (.map (lenField req) (loadLatches req))
  else if opField req = 0x3#4 then .instr (.chk (lenField req) (loadLatches req))
  else if opField req = 0x4#4 then .instr (.vfy (lenField req) (loadLatches req))
  else .reservedOp (opField req)

/-- A row of the opcode table: selected by a word when `(req & mask) == match` (R53). -/
structure OpRow where
  mnemonic : String
  opMatch  : RequestWord
  opMask   : RequestWord
  deriving DecidableEq, Repr

/-- `(req & mask) == match` (R53). -/
def OpRow.selects (r : OpRow) (req : RequestWord) : Bool := req &&& r.opMask == r.opMatch

/-- The rows of `spec/opcode_table.json`. -/
def opTable : List OpRow :=
  [⟨"ENC", 0x100000000000000#60, 0xF00000000000000#60⟩,
   ⟨"MAP", 0x200000000000000#60, 0xF00000000000000#60⟩,
   ⟨"CHK", 0x300000000000000#60, 0xF00000000000000#60⟩,
   ⟨"VFY", 0x400000000000000#60, 0xF00000000000000#60⟩]

/-- The mnemonic of an instruction, as the table spells it. -/
def mnemonicOf : Instr → String
  | .enc _ _ => "ENC"
  | .map _ _ => "MAP"
  | .chk _ _ => "CHK"
  | .vfy _ _ => "VFY"

/-- The operation code of an instruction (R53). -/
def opcodeOf : Instr → Nibble
  | .enc _ _ => 0x1#4
  | .map _ _ => 0x2#4
  | .chk _ _ => 0x3#4
  | .vfy _ _ => 0x4#4

/-- 13 nibbles side by side, position 0 the most significant: the field `DIG` (R50), and `label(d)` (R54). -/
def packNibbles (d : Latches) : BitVec 52 :=
  d[0] ++ d[1] ++ d[2] ++ d[3] ++ d[4] ++ d[5] ++ d[6] ++ d[7] ++ d[8] ++ d[9] ++ d[10] ++ d[11] ++ d[12]

/-- A request word from its three fields (R50). -/
def packRequest (op n : Nibble) (d : Latches) : RequestWord := op ++ n ++ packNibbles d

/-- The request word of an instruction (R50, R53). -/
def encode (i : Instr) : RequestWord := packRequest (opcodeOf i) i.count i.digits

/-- The host's question: the instruction read from a word of `nbits` bits, the bits above being 0. A word that
does not fit the 60 bits of a request is no request (R50; log entry 9). -/
def decodeTableWord (nbits w : Nat) : Option Instr :=
  let v := w % 2 ^ nbits
  if v < 2 ^ 60 then
    match decode (BitVec.ofNat 60 v) with
    | .instr i => some i
    | .reservedOp _ => none
  else none

end Sys2Proof
end

