-- ==== Sys2Proof/Machine/State.lean ====
section
/-! DEFINITION. The state of the unit (R10, R15 to R18, R24): the four response registers, and, as the model's own
field, what the host will present next. The operand latches, the digit count and the ROMs are not state, by
R11, R12 and R23. -/

namespace Sys2Proof.Machine

/-- What the host can do to the unit that is a step of it (R134): present a request word, or assert reset.
Reading the registers has no effect and is a function of the state. -/
inductive HostInput where
  /-- A 60-bit request word is presented (R10, R50). -/
  | request (req : RequestWord)
  /-- The reset input is asserted, between transactions (R140, R141; log entry 7). -/
  | reset
  deriving DecidableEq, Repr

/-- Reasons to stop with a fault. There is none: every error of the unit is a defined response that completes the
transaction (R120, R129), and no address, alignment, arithmetic or privilege fault exists (R120). -/
inductive Fault where
  deriving DecidableEq, Repr

/-- Reasons to refuse. -/
inductive Refusal where
  /-- An instruction without a meaning in this model. No arm of `exec` raises it: every row of the opcode table
  has its meaning. Safe: the model stops where the hardware goes on. -/
  | notModelled (mnemonic : String)
  deriving DecidableEq, Repr

/-- The triple a transaction computes, `exec(req)` of R54: what is written to `STATUS`, `LABEL` and `MOD`. -/
structure Response where
  status : BitVec 2
  label  : LabelWord
  mod    : ModWord
  deriving DecidableEq, Repr

/-- The state of the unit. -/
structure State where
  /-- `RSP_VALID`, 1 bit (R15). -/
  rspValid : BitVec 1
  /-- `STATUS`, 2 bits (R16). -/
  status   : BitVec 2
  /-- `LABEL`, 52 bits (R17). -/
  label    : LabelWord
  /-- `MOD`, 95 bits (R18). -/
  mod      : ModWord
  /-- THE MODEL'S OWN field (log entry 1): what the host will present, the next first (R10, R149). -/
  inputs   : List HostInput
  deriving DecidableEq, Repr

/-- The unit after reset, with nothing presented (R24; the empty list is log entry 1). -/
def State.reset : State :=
  { rspValid := 0, status := 0, label := 0, mod := 0, inputs := [] }

/-- What the host reads from the three registers that hold a response (R134). -/
def State.response (s : State) : Response := { status := s.status, label := s.label, mod := s.mod }

end Sys2Proof.Machine
end

