-- ==== Sys2Proof/Machine/Flags.lean ====
section
/-! DEFINITION. The unit's only status flag, `STATUS` (R16): the error kinds and their codes (R120). There are no
condition codes, and no operation has a flag effect other than writing `STATUS` with its outcome (R16). -/

namespace Sys2Proof.Machine

/-- The complete list of error outcomes (R120). -/
inductive ErrorKind where
  /-- R121. -/
  | invalidInput
  /-- R122. -/
  | checksumMismatch
  /-- R123. -/
  | illegalOp
  deriving DecidableEq, Repr

/-- The codes of R120. -/
def ErrorKind.code : ErrorKind → BitVec 2
  | .invalidInput => 1
  | .checksumMismatch => 2
  | .illegalOp => 3

/-- `STATUS = 0` is `OK` (R16). -/
def statusOk : BitVec 2 := 0

/-- What a value of `STATUS` says: no error, or which one (R16). All four values are legal. -/
def statusMeaning (v : BitVec 2) : Option ErrorKind :=
  if v = 1 then some .invalidInput
  else if v = 2 then some .checksumMismatch
  else if v = 3 then some .illegalOp
  else none

end Sys2Proof.Machine
end

