-- ==== Sys2Proof/Machine/Ops.lean ====
section
/-! DEFINITION. The shared operations on the registers: completing a transaction (R10, R15), raising an error
(R124), reset (R140), and taking the host's next input (R10). There is no return from an error and nothing to
restore (R128). -/

namespace Sys2Proof.Machine

/-- A successful outcome: `STATUS <- 0` and the two results (R54). -/
def succeed (label : LabelWord) (mod : ModWord) : Response := { status := statusOk, label := label, mod := mod }

/-- Raising an error, for every kind: `STATUS <- code(E)`, `LABEL <- 0`, `MOD <- 0` (R124). No other state is
saved or changed; control goes nowhere, for there is no handler (R124, R126). -/
def raise (e : ErrorKind) : Response := { status := e.code, label := 0, mod := 0 }

/-- The completion of a transaction: the four response registers are written together (R10, R15). -/
def State.complete (s : State) (r : Response) : State :=
  { s with rspValid := 1, status := r.status, label := r.label, mod := r.mod }

/-- The reset event: every register at its reset value; what the host will present is not the unit's (R140). -/
def State.resetEvent (s : State) : State := { State.reset with inputs := s.inputs }

/-- The host's next input, and the state once it is taken (R10: in the order the host presents them). -/
def takeInput (s : State) : Option (HostInput × State) :=
  match s.inputs with
  | [] => none
  | x :: rest => some (x, { s with inputs := rest })

/-- The transaction of a request with a reserved `OP`, whatever its LEN and DIG (R58, R123). -/
def execReservedOp (s : State) : State := s.complete (raise .illegalOp)

end Sys2Proof.Machine
end

