-- ==== Sys2Proof/Machine/Operands.lean ====
section
/-! DEFINITION. The operands: reading the latches as digits, which is the digit-range check (R51, R57, R70), the
digit-count check (R59, R71), and the label (R17, R54). -/

namespace Sys2Proof.Machine

/-- The first `k` latches as digits, if every one of them holds 0 to 9 (R70). Latches at positions `k` and above
are not examined (R56, R70). -/
def readDigits (k : Nat) (d : Latches) (hk : k ≤ 13 := by decide) : Option (Vector Digit k) :=
  if h : ∀ i : Fin k, (d[i.val]'(by omega)).toNat ≤ 9 then
    some (Vector.ofFn fun i : Fin k => ⟨(d[i.val]'(by omega)).toNat, Nat.lt_succ_of_le (h i)⟩)
  else none

/-- The common checks of R54 for an operation that takes 12 digits: the count, then the range; `InvalidInput` if
either fails. -/
def withDigits12 (n : Nibble) (d : Latches) (use : Digits12 → Response) : Response :=
  if n = 12#4 then
    match readDigits 12 d with
    | some x => use x
    | none => raise .invalidInput
  else raise .invalidInput

/-- The same for an operation that takes 13 digits (R54). -/
def withDigits13 (n : Nibble) (d : Latches) (use : Code → Response) : Response :=
  if n = 13#4 then
    match readDigits 13 d with
    | some y => use y
    | none => raise .invalidInput
  else raise .invalidInput

/-- The nibble that holds a digit (R17). -/
def digitNibble (g : Digit) : Nibble := BitVec.ofNat 4 g.val

/-- The latches that hold a code. -/
def codeLatches (y : Code) : Latches := Vector.ofFn fun i : Fin 13 => digitNibble y[i]

/-- `label(d) = {d[0], …, d[12]}` (R17, R54). -/
def labelWord (y : Code) : LabelWord := packNibbles (codeLatches y)

/-- Digit position `i` of `LABEL`, `LABEL[51-4*i : 48-4*i]` (R17). -/
def labelNibble (v : LabelWord) (i : Fin 13) : Nibble := v.extractLsb' (48 - 4 * i.val) 4

/-- `Code.value = d[0]*10^12 + … + d[12]*10^0`, for reference only: no hardware holds it and no operation reads
it (R13). -/
def codeValue (y : Code) : Nat := (List.finRange 13).foldl (fun v i => v * 10 + y[i].val) 0

end Sys2Proof.Machine
end

