-- ==== Sys2Proof/Machine/CheckDigit.lean ====
section
/-! DEFINITION. The check-digit unit (R72 to R76) and the operations CHK (R77) and VFY (R78). -/

namespace Sys2Proof.Machine

/-- The weighted sum of 12 digits: weight 1 at positions 0, 2, …, 10 and weight 3 at positions 1, 3, …, 11 (R72). -/
def wsum12 (x : Digits12) : Nat :=
  (x[0].val + x[2].val + x[4].val + x[6].val + x[8].val + x[10].val)
    + 3 * (x[1].val + x[3].val + x[5].val + x[7].val + x[9].val + x[11].val)

/-- The weighted sum of 13 digits, the bracket of the source's formula (R72). -/
def wsum13 (y : Code) : Nat :=
  (y[0].val + y[2].val + y[4].val + y[6].val + y[8].val + y[10].val + y[12].val)
    + 3 * (y[1].val + y[3].val + y[5].val + y[7].val + y[9].val + y[11].val)

/-- `(10 - w) mod 10` with the floored remainder of R7, as a digit (R73). -/
def tenComplement (w : Nat) : Digit :=
  ⟨(((10 : Int) - (w : Int)) % 10).toNat, by omega⟩

/-- `checkdigit(d) = (10 - wsum12(d)) mod 10` (R73). -/
def checkdigit (x : Digits12) : Digit := tenComplement (wsum12 x)

/-- `checksum13(d) = (10 - wsum13(d)) mod 10`, the source's recomputed value (R73, R75). -/
def checksum13 (y : Code) : Digit := tenComplement (wsum13 y)

/-- The append step: `d[12] <- checkdigit(d)` (R74). -/
def appendCheck (x : Digits12) : Code := x.push (checkdigit x)

/-- `valid13(d) = (wsum13(d) mod 10 == 0)` (R75). -/
def valid13 (y : Code) : Bool := wsum13 y % 10 == 0

/-- The response of CHK once its digits are read (R77). -/
def chkDigits (x : Digits12) : Response := succeed (labelWord (appendCheck x)) 0

/-- The response of CHK (R77). -/
def chkResponse (n : Nibble) (d : Latches) : Response := withDigits12 n d chkDigits

/-- The response of VFY once its digits are read (R78). -/
def vfyDigits (y : Code) : Response :=
  if valid13 y then succeed (labelWord y) 0 else raise .checksumMismatch

/-- The response of VFY (R78). -/
def vfyResponse (n : Nibble) (d : Latches) : Response := withDigits13 n d vfyDigits

/-- CHK (R77). -/
def execChk (n : Nibble) (d : Latches) (s : State) : Host.Outcome State Fault Refusal :=
  .next (s.complete (chkResponse n d))

/-- VFY (R78). -/
def execVfy (n : Nibble) (d : Latches) (s : State) : Host.Outcome State Fault Refusal :=
  .next (s.complete (vfyResponse n d))

end Sys2Proof.Machine
end

