-- ==== Sys2Proof/Config.lean ====
section
/-! DEFINITION. The parameters of the machine: the contents of its two read-only memories (R6, R23).
They are parameters of the step and not state. Every function that reads a table takes them as an argument, so
that a statement can be made for all table contents (U1). The default contents, which `exec` runs with, stand
in `Machine/Rom.lean`. The other open parameter of R6, the latency `LAT`, is timing that no rule reads (R148):
the model has no time and does not take it (log entry 6). -/

namespace Sys2Proof

/-- The contents of the two ROMs (R21, R32, R34): `PARITY`, 10 rows addressed by the first digit, and `PATTERN`,
3 codesets (L, G, R in this order, R31) of 10 entries addressed by a digit. -/
structure Roms where
  parity  : Vector ParityRow 10
  pattern : Vector (Vector PatternEntry 10) 3
  deriving DecidableEq, Repr

end Sys2Proof
end

