-- ==== Sys2Proof/Machine/Rom.lean ====
section
/-! DEFINITION. The two read-only memories: their codes (R31), how they are read (R7, R32, R34) and their default
contents (R33, R35). Lookups are typed on digits 0 to 9 and codesets L, G, R, so an address that names nothing
cannot be formed (R40, D24; log entry 10). -/

namespace Sys2Proof.Machine

/-- A parity selector (R31). -/
inductive Selector where
  | L | G
  deriving DecidableEq, Repr

/-- A codeset: L left-hand odd, G left-hand even, R right-hand (R31). -/
inductive Codeset where
  | L | G | R
  deriving DecidableEq, Repr

/-- Selector codes: L = 0, G = 1 (R31). -/
def Selector.code : Selector → BitVec 1
  | .L => 0
  | .G => 1

/-- The selector that a bit of a parity row stands for (R31). -/
def selectorOfBit (b : Bool) : Selector := if b then .G else .L

/-- Codeset codes: L = 0, G = 1, R = 2; code 3 names no codeset (R31). -/
def Codeset.code : Codeset → BitVec 2
  | .L => 0
  | .G => 1
  | .R => 2

/-- The codeset's index in the pattern ROM, its code as a number (R31, R34). -/
def Codeset.index : Codeset → Fin 3
  | .L => 0
  | .G => 1
  | .R => 2

/-- The codeset a selector selects, `zext_2` of its code (R31, R92). -/
def Selector.codeset : Selector → Codeset
  | .L => .L
  | .G => .G

/-- `MemRead(PARITY, f)`: the whole row of first digit `f` (R32). -/
def readParity (R : Roms) (f : Digit) : ParityRow := R.parity[f]

/-- `MemRead(PATTERN, c, g)`: the whole entry of codeset `c`, digit `g` (R34). -/
def readPattern (R : Roms) (c : Codeset) (g : Digit) : PatternEntry := R.pattern[c.index][g]

/-- `row[k] = rowbits[5-k]` (R32). -/
def rowSelector (row : ParityRow) (k : Fin 6) : Selector := selectorOfBit (row.getLsbD (5 - k.val))

/-- An entry as its sequence of modules, `p[j] = pbits[6-j]`, element 0 the leftmost (R34). -/
def entryModules (p : PatternEntry) : List Bool := (List.finRange 7).map fun j => p.getLsbD (6 - j.val)

/-- The default `PARITY_ROM` (R33; from general knowledge by the spec's own mark U1, log entry 3). -/
def defaultParity : Vector ParityRow 10 :=
  #v[0b000000#6, 0b001011#6, 0b001101#6, 0b001110#6, 0b010011#6,
     0b011001#6, 0b011100#6, 0b010101#6, 0b010110#6, 0b011010#6]

/-- The default codeset L (R35; U2, log entry 3). -/
def defaultL : Vector PatternEntry 10 :=
  #v[0b0001101#7, 0b0011001#7, 0b0010011#7, 0b0111101#7, 0b0100011#7,
     0b0110001#7, 0b0101111#7, 0b0111011#7, 0b0110111#7, 0b0001011#7]

/-- The default codeset G (R35; U2, log entry 3). -/
def defaultG : Vector PatternEntry 10 :=
  #v[0b0100111#7, 0b0110011#7, 0b0011011#7, 0b0100001#7, 0b0011101#7,
     0b0111001#7, 0b0000101#7, 0b0010001#7, 0b0001001#7, 0b0010111#7]

/-- The default codeset R (R35; U2, log entry 3). -/
def defaultR : Vector PatternEntry 10 :=
  #v[0b1110010#7, 0b1100110#7, 0b1101100#7, 0b1000010#7, 0b1011100#7,
     0b1001110#7, 0b1010000#7, 0b1000100#7, 0b1001000#7, 0b1110100#7]

/-- The ROM contents the machine runs with: the defaults of R33 and R35, at all times (R142). -/
def roms : Roms := { parity := defaultParity, pattern := #v[defaultL, defaultG, defaultR] }

end Sys2Proof.Machine
end

