-- ==== Sys2Proof/Machine/Mapper.lean ====
section
/-! DEFINITION. The mapper (R90 to R98) and the operation MAP (R99). Everything here is for all ROM contents. -/

namespace Sys2Proof.Machine

/-- `sel(d,i) = row[i-1]` for positions 1 to 6, the row read at the first digit (R91). -/
def sel (R : Roms) (y : Code) (i : Nat) (h : 1 ≤ i ∧ i ≤ 6 := by decide) : Selector :=
  rowSelector (readParity R y[0]) ⟨i - 1, by omega⟩

/-- `pat(d,i)`: for positions 1 to 6 the entry of the selected codeset, for positions 7 to 12 the entry of codeset R
(R92). There is no `pat(d,0)`. -/
def pat (R : Roms) (y : Code) (i : Nat) (h : 1 ≤ i ∧ i ≤ 12 := by decide) : PatternEntry :=
  if h6 : i ≤ 6 then readPattern R (sel R y i ⟨h.1, h6⟩).codeset (y[i]'(by omega))
  else readPattern R .R (y[i]'(by omega))

/-- The left-hand block, positions 1 to 6, 42 modules (R93). -/
def leftBlock (R : Roms) (y : Code) : List Bool :=
  entryModules (pat R y 1) ++ entryModules (pat R y 2) ++ entryModules (pat R y 3)
    ++ entryModules (pat R y 4) ++ entryModules (pat R y 5) ++ entryModules (pat R y 6)

/-- The right-hand block, positions 7 to 12, 42 modules (R94). -/
def rightBlock (R : Roms) (y : Code) : List Bool :=
  entryModules (pat R y 7) ++ entryModules (pat R y 8) ++ entryModules (pat R y 9)
    ++ entryModules (pat R y 10) ++ entryModules (pat R y 11) ++ entryModules (pat R y 12)

/-- `GUARD_END = [1,0,1]` (R95). -/
def guardEnd : List Bool := [true, false, true]

/-- `GUARD_CENTER = [0,1,0,1,0]` (R96). -/
def guardCenter : List Bool := [false, true, false, true, false]

/-- The module sequence of a code (R97). A 1 is a bar, a 0 a space. -/
def assemble (R : Roms) (y : Code) : List Bool :=
  guardEnd ++ leftBlock R y ++ guardCenter ++ rightBlock R y ++ guardEnd

/-- A module sequence as the value of `MOD`, the first module in the most significant bit (R18). -/
def modWord (ms : List Bool) : ModWord := ms.foldl (fun v b => v.shiftConcat b) 0

/-- Module `m` of a value of `MOD`, bit `94 - m` (R18). -/
def moduleAt (v : ModWord) (m : Fin 95) : Bool := v.getLsbD (94 - m.val)

/-- The value of `MOD` for a code (R97, R99). -/
def barcode (R : Roms) (y : Code) : ModWord := modWord (assemble R y)

/-- The response of MAP once its digits are read: the check digit is not validated (R99). -/
def mapDigits (R : Roms) (y : Code) : Response := succeed (labelWord y) (barcode R y)

/-- The response of MAP (R99). -/
def mapResponse (R : Roms) (n : Nibble) (d : Latches) : Response := withDigits13 n d (mapDigits R)

/-- MAP (R99). -/
def execMap (n : Nibble) (d : Latches) (s : State) : Host.Outcome State Fault Refusal :=
  .next (s.complete (mapResponse roms n d))

end Sys2Proof.Machine
end

