-- ==== Sys2Proof/Machine/Encode.lean ====
section
/-! DEFINITION. The composite operation ENC, the source's `encode` (R110). -/

namespace Sys2Proof.Machine

/-- Steps 4 to 6 on 13 digits: validate, then map (R110). -/
def encCode (R : Roms) (y : Code) : Response :=
  if valid13 y then succeed (labelWord y) (barcode R y) else raise .checksumMismatch

/-- The response of ENC: the checks; with 12 digits the append step; then steps 4 to 6 (R110). -/
def encResponse (R : Roms) (n : Nibble) (d : Latches) : Response :=
  if n = 12#4 then withDigits12 n d fun x => encCode R (appendCheck x)
  else withDigits13 n d (encCode R)

/-- ENC (R110). -/
def execEnc (n : Nibble) (d : Latches) (s : State) : Host.Outcome State Fault Refusal :=
  .next (s.complete (encResponse roms n d))

end Sys2Proof.Machine
end

