-- ==== Sys2Proof/Machine/Dispatch.lean ====
section
/-! DEFINITION. One arm per constructor of `Instr` (R53, R54). -/

namespace Sys2Proof.Machine

def exec (i : Instr) (s : State) : Host.Outcome State Fault Refusal :=
  match i with
  | .enc n d => Sys2Proof.Machine.execEnc n d s
  | .map n d => Sys2Proof.Machine.execMap n d s
  | .chk n d => Sys2Proof.Machine.execChk n d s
  | .vfy n d => Sys2Proof.Machine.execVfy n d s

end Sys2Proof.Machine
end

