-- ==== Sys2Proof/Machine/Step.lean ====
section
/-! DEFINITION. One step of the unit (R10): the transaction of the request at the head of the host's inputs, or the
reset event; with nothing presented the registers hold (D22; log entry 2). -/

namespace Sys2Proof.Machine

/-- One step (R10, R54, R140). -/
def step (s : State) : Host.Outcome State Fault Refusal :=
  match takeInput s with
  | none => .next s
  | some (.reset, s') => .next s'.resetEvent
  | some (.request req, s') =>
    match decode req with
    | .instr i => exec i s'
    | .reservedOp _ => .next (execReservedOp s')

/-- `s` with the request word `w` presented before anything else, so that the next step is its transaction. The
word is read as `decodeTableWord` reads it, and bits above bit 59, which no request has, are dropped
(log entries 1, 9). -/
def State.withFetchWord (s : State) (nbits w : Nat) : State :=
  { s with inputs := .request (BitVec.ofNat 60 (w % 2 ^ nbits)) :: s.inputs }

end Sys2Proof.Machine
end

