-- ==== Sys2Proof/Machine/Assembler.lean ====
section
/-! DEFINITION. The textual form of a request and its assembly into a word, and disassembly (R61, R62). It belongs
to the toolchain and the host adapter, not to the unit. -/

namespace Sys2Proof.Machine

/-- The first word of an assembler line: a mnemonic, or `OP<k>` for a reserved code (R61). -/
inductive AsmOp where
  | enc | map | chk | vfy
  | reserved (k : Nat)
  deriving DecidableEq, Repr

/-- `k` is a reserved code, 0 or 5 to 15 (R58, R61; log entry 13). -/
def AsmOp.wellFormed : AsmOp → Bool
  | .enc => true
  | .map => true
  | .chk => true
  | .vfy => true
  | .reserved k => k == 0 || (decide (5 ≤ k) && decide (k ≤ 15))

/-- The operation code (R53, R61). -/
def AsmOp.code : AsmOp → Nibble
  | .enc => 0x1#4
  | .map => 0x2#4
  | .chk => 0x3#4
  | .vfy => 0x4#4
  | .reserved k => BitVec.ofNat 4 k

/-- The printed name (R61). -/
def AsmOp.name : AsmOp → String
  | .enc => "ENC"
  | .map => "MAP"
  | .chk => "CHK"
  | .vfy => "VFY"
  | .reserved k => "OP" ++ toString k

/-- A line `<mnemonic> "<string>"` (R61). -/
structure AsmLine where
  op   : AsmOp
  text : List Char
  deriving DecidableEq, Repr

/-- The line as text (R61). -/
def AsmLine.print (l : AsmLine) : String := l.op.name ++ " \"" ++ String.ofList l.text ++ "\""

/-- The value of a character: `0` to `9` are 0 to 9, `a` to `e` and `A` to `E` are 10 to 14, every other character
is 15 (R61). Character codes: log entry 11. -/
def charValue (ch : Char) : Nibble :=
  let v := ch.toNat
  if 48 ≤ v ∧ v ≤ 57 then BitVec.ofNat 4 (v - 48)
  else if 97 ≤ v ∧ v ≤ 101 then BitVec.ofNat 4 (v - 87)
  else if 65 ≤ v ∧ v ≤ 69 then BitVec.ofNat 4 (v - 55)
  else 15#4

/-- The nibble at position `i`: the value of character `i`, and 0 if the string has none (R61). -/
def charNibble (text : List Char) (i : Nat) : Nibble :=
  match text[i]? with
  | some ch => charValue ch
  | none => 0

/-- Assembly: `LEN = min(len, 15)`; characters at index 13 and above are dropped (R61). -/
def assembleLine (l : AsmLine) : RequestWord :=
  packRequest l.op.code (BitVec.ofNat 4 (min l.text.length 15)) (Vector.ofFn fun i : Fin 13 => charNibble l.text i.val)

/-- The mnemonic of an operation code, or `OP<k>` (R62). -/
def asmOpOf (op : Nibble) : AsmOp :=
  if op = 0x1#4 then .enc
  else if op = 0x2#4 then .map
  else if op = 0x3#4 then .chk
  else if op = 0x4#4 then .vfy
  else .reserved op.toNat

/-- The character a nibble is printed as: the inverse of `charValue`, 10 to 14 as `a` to `e` and 15 as `?` (R62). -/
def nibbleChar (v : Nibble) : Char :=
  if v.toNat ≤ 9 then Char.ofNat (48 + v.toNat)
  else if v.toNat ≤ 14 then Char.ofNat (87 + v.toNat)
  else '?'

/-- Disassembly: the mnemonic of `OP` and the first `min(n, 13)` nibbles as characters (R62). -/
def disassemble (req : RequestWord) : AsmLine :=
  { op := asmOpOf (opField req)
    text := ((loadLatches req).toList.take (min (lenField req).toNat 13)).map nibbleChar }

end Sys2Proof.Machine
end

