-- ==== Sys2Proof/Machine/Source.lean ====
section
/-! DEFINITION. The source's `encode(input: string) -> BarcodePattern` on character strings, steps 1 to 6 as the
rules quote them (R70 to R75, R91 to R97, R110, R120). It is no part of the hardware: R63 says how the unit's ENC
compares with it, and an obligation states that. Written with recursion on lists, apart from the unit's functions. -/

namespace Sys2Proof.Machine

/-- The source's two error kinds (R120, R121, R122). -/
inductive SourceError where
  | invalidInput
  | checksumMismatch
  deriving DecidableEq, Repr

/-- The source's output: 95 modules and the 13-character label (R9). -/
structure BarcodePattern where
  modules : List Bool
  label   : List Char
  deriving DecidableEq, Repr

/-- What `encode` returns. -/
inductive SourceResult where
  | ok (b : BarcodePattern)
  | error (e : SourceError)
  deriving DecidableEq, Repr

/-- A decimal digit character `0` to `9` as a digit; nothing else is one (R51, R61; log entry 11). -/
def charDigit (ch : Char) : Option Digit :=
  if h : 48 ≤ ch.toNat ∧ ch.toNat ≤ 57 then some ⟨ch.toNat - 48, by omega⟩ else none

/-- The character of a digit, code `0x30 + v` (R17; U4, log entry 11). -/
def digitChar (g : Digit) : Char := Char.ofNat (48 + g.val)

/-- Step 1, the characters: none if one of them is not a decimal digit (R70). -/
def parseDigits : List Char → Option (List Digit)
  | [] => some []
  | ch :: rest =>
    match charDigit ch, parseDigits rest with
    | some g, some gs => some (g :: gs)
    | _, _ => none

/-- The weights 1, 3, 1, 3, … from the first digit on (R72). -/
def weightedSum : List Digit → Nat
  | [] => 0
  | [a] => a.val
  | a :: b :: rest => a.val + 3 * b.val + weightedSum rest

/-- Step 3, `(10 - sum) mod 10`, floored (R73). -/
def sourceChecksum (ds : List Digit) : Digit :=
  ⟨(((10 : Int) - (weightedSum ds : Int)) % 10).toNat, by omega⟩

/-- Step 2: with 12 digits the checksum digit is appended (R74). -/
def completeDigits (ds : List Digit) : List Digit :=
  if ds.length = 12 then ds ++ [sourceChecksum ds] else ds

/-- The left-hand block: each digit with the selector of its place in the parity row (R91, R93). -/
def sourceLeft (R : Roms) (row : ParityRow) (ds : List Digit) : List Bool :=
  ((List.finRange 6).zip ds).flatMap fun kg => entryModules (readPattern R (rowSelector row kg.1).codeset kg.2)

/-- The right-hand block (R94). -/
def sourceRight (R : Roms) (ds : List Digit) : List Bool :=
  ds.flatMap fun g => entryModules (readPattern R .R g)

/-- Step 5 on the digits of a complete code: the first selects the parity row, the next six are the left half and
the rest the right half (R91 to R97). -/
def sourceModules (R : Roms) : List Digit → List Bool
  | [] => []
  | first :: rest =>
    [true, false, true] ++ sourceLeft R (readParity R first) (rest.take 6) ++ [false, true, false, true, false]
      ++ sourceRight R (rest.drop 6) ++ [true, false, true]

/-- Steps 4 to 6 on a complete sequence of digits (R75, R97, R110). -/
def sourceFinish (R : Roms) (ds : List Digit) : SourceResult :=
  if (sourceChecksum ds).val = 0 then .ok { modules := sourceModules R ds, label := ds.map digitChar }
  else .error .checksumMismatch

/-- The source's `encode`: any string, of any length (R63, R110). -/
def sourceEncode (R : Roms) (input : List Char) : SourceResult :=
  match parseDigits input with
  | none => .error .invalidInput
  | some ds =>
    if ds.length = 12 ∨ ds.length = 13 then sourceFinish R (completeDigits ds) else .error .invalidInput

end Sys2Proof.Machine
end

