-- ==== Sys2Proof/Machine/Run.lean ====
section
/-! DEFINITION. `exec(req)` of R54 as one pure function of the request word and the ROM contents, and the runs of
R149. `step` does not use these: statements compare the two. -/

namespace Sys2Proof.Machine

/-- The response of an instruction (R54, the case on `op`). -/
def instrResponse (R : Roms) : Instr → Response
  | .enc n d => encResponse R n d
  | .map n d => mapResponse R n d
  | .chk n d => chkResponse n d
  | .vfy n d => vfyResponse n d

/-- `exec(req)`: the triple written to (`STATUS`, `LABEL`, `MOD`), for every one of the 2^60 words (R54). -/
def respond (R : Roms) (req : RequestWord) : Response :=
  match decode req with
  | .instr i => instrResponse R i
  | .reservedOp _ => raise .illegalOp

/-- What the host reads after each of the next `k` steps (R134, R149). -/
def observe : Nat → State → List Response
  | 0, _ => []
  | k + 1, s =>
    match step s with
    | .next s' => s'.response :: observe k s'
    | .fault _ => []
    | .refused _ => []

end Sys2Proof.Machine
end

