-- ==== Sys2Proof/Safety.lean ====
section
/-! DEFINITION. What a sound set of response registers is (R15 to R18, R124): the terms in which claims about whole
runs are made. -/

namespace Sys2Proof.Machine

/-- What the host may rely on when it reads the registers, in every state a run from reset meets. -/
structure State.Sound (s : State) : Prop where
  /-- While `RSP_VALID` is 0 the other registers hold their reset values (R15). -/
  quiet : s.rspValid = 0 → s.status = 0 ∧ s.label = 0 ∧ s.mod = 0
  /-- With an error, `LABEL` and `MOD` are zero: no partial result (R17, R18, R124). -/
  noPartial : s.status ≠ 0 → s.label = 0 ∧ s.mod = 0
  /-- Every nibble of `LABEL` is a decimal digit (R17). -/
  labelDigits : ∀ i : Fin 13, (labelNibble s.label i).toNat ≤ 9
  /-- `MOD` is zero or the barcode of the code that `LABEL` shows (R18). -/
  barcodeOfLabel : s.mod ≠ 0 → ∃ y : Code, s.label = labelWord y ∧ s.mod = barcode roms y

end Sys2Proof.Machine

namespace Sys2Proof

/-- Does the operation validate the check digit of these operands: ENC with 13 digits, and VFY (R122)? -/
def Instr.mustValidate : Instr → Bool
  | .enc n _ => n.toNat == 13
  | .map _ _ => false
  | .chk _ _ => false
  | .vfy _ _ => true

/-- The weighted sum of R72 taken on the nibbles as numbers, digit or not. -/
def nibbleSum13 (d : Latches) : Nat :=
  (d[0].toNat + d[2].toNat + d[4].toNat + d[6].toNat + d[8].toNat + d[10].toNat + d[12].toNat)
    + 3 * (d[1].toNat + d[3].toNat + d[5].toNat + d[7].toNat + d[9].toNat + d[11].toNat)

/-- The digits of `LABEL` as operand nibbles of a further request (R111, R114). -/
def labelLatches (v : LabelWord) : Latches := Vector.ofFn fun i : Fin 13 => Machine.labelNibble v i

end Sys2Proof
end

