-- ==== Sys2Proof/Certificates/Slice0/Obligations.lean ====
section
/-! DEFINITION. The statements for the provers, from the numbered rules of the spec. `State.inputs`, the host's
coming inputs, is the model's own field (log entry 1): wherever a statement speaks of it, or of a step with nothing
presented (log entry 2) or of the reset event (log entry 7), that part is the model's choice. -/

open Sys2Proof Sys2Proof.Machine

/-! ### Reset, the host and the step -/

/-- R140 with the values of R24. Clauses: the state after reset; a reset event, from any state; and until a request
is taken the registers stay as reset left them. That reset is an event of the input list is log entry 7. -/
def Obligations.ResetValuesHoldUntilFirstTransaction : Prop :=
  (State.reset.rspValid = 0 ∧ State.reset.status = 0 ∧ State.reset.label = 0 ∧ State.reset.mod = 0) ∧
  (∀ (s : State) (rest : List HostInput),
    step { s with inputs := .reset :: rest } = .next { State.reset with inputs := rest }) ∧
  (∀ s t : State, s.rspValid = 0 → s.status = 0 → s.label = 0 → s.mod = 0 →
    (∀ req, s.inputs.head? ≠ some (.request req)) → step s = .next t →
    t.rspValid = 0 ∧ t.status = 0 ∧ t.label = 0 ∧ t.mod = 0)

/-- R15: 0 after reset, set by every transaction, cleared only by reset; while it is 0 the other registers hold their
reset values (this last clause in sound states, which every run from reset stays in: `SoundRegistersArePreserved`).
That requests and resets come as a list is log entries 1 and 7. -/
def Obligations.RspValidIsSetByEveryTransaction : Prop :=
  State.reset.rspValid = 0 ∧
  (∀ (s t : State) (req : RequestWord), s.inputs.head? = some (.request req) → step s = .next t → t.rspValid = 1) ∧
  (∀ s t : State, s.rspValid = 1 → s.inputs.head? ≠ some .reset → step s = .next t → t.rspValid = 1) ∧
  (∀ s t : State, s.Sound → step s = .next t → t.rspValid = 0 → t.status = 0 ∧ t.label = 0 ∧ t.mod = 0)

/-- The model's choice, log entry 2, from D22 and the opening of section 4 of `10_state.md`: "between the completion of
one transaction and the completion of the next, the registers do not change". A step with nothing presented changes
nothing. -/
def Obligations.IdleStepChangesNothing : Prop :=
  ∀ s : State, s.inputs = [] → step s = .next s

/-- R150: no step stops or waits, in any state, and each takes one input of the host's list (log entry 1). -/
def Obligations.EveryStepCompletes : Prop :=
  ∀ s : State, ∃ t : State, step s = .next t ∧ t.inputs = s.inputs.tail

/-- A word whose operation code is assigned: the step is the decoded instruction's, the word being taken from the head
of the list (log entry 1). -/
def Obligations.StepRunsDecodedInstruction : Prop :=
  ∀ (s : State) (req : RequestWord) (rest : List HostInput) (i : Instr), decode req = .instr i →
    step { s with inputs := .request req :: rest } = exec i { s with inputs := rest }

/-- R10: the step on any request word writes the four response registers together, with the response of that word,
and nothing else. That the word is taken from the head of a list is log entry 1. -/
def Obligations.TransactionWritesTheFourRegisters : Prop :=
  ∀ (s : State) (req : RequestWord) (rest : List HostInput),
    step { s with inputs := .request req :: rest } =
      .next { rspValid := 1, status := (respond roms req).status, label := (respond roms req).label,
              mod := (respond roms req).mod, inputs := rest }

/-! ### Encoding -/

/-- No bit of an instruction's encoding is dropped: every instruction, at every operand value (R50, R60). -/
def Obligations.DecodeEncodeRoundTrip : Prop :=
  ∀ i : Instr, decode (encode i) = .instr i

/-- Every bit of a word belongs to the instruction read from it (R60). -/
def Obligations.EncodeOfDecodedWordIsTheWord : Prop :=
  ∀ (req : RequestWord) (i : Instr), decode req = .instr i → encode i = req

/-- R50: the fields of format Q, by the value of the word, and its example. -/
def Obligations.FieldsStandWhereFormatQPutsThem : Prop :=
  (∀ (req : RequestWord) (i : Instr), decode req = .instr i →
    (opcodeOf i).toNat = req.toNat / 2 ^ 56 ∧
    i.count.toNat = req.toNat / 2 ^ 52 % 16 ∧
    ∀ p : Fin 13, i.digits[p].toNat = req.toNat / 2 ^ (48 - 4 * p.val) % 16) ∧
  decode 0x1D4006381333931#60 = .instr (.enc 13#4 #v[4, 0, 0, 6, 3, 8, 1, 3, 3, 3, 9, 3, 1])

/-- R53: an operation is selected exactly when `(req & mask) == match` of its row of the opcode table. -/
def Obligations.OpcodeTableRowsSelect : Prop :=
  ∀ req : RequestWord,
    (∀ i : Instr, decode req = .instr i → ∀ r ∈ opTable, r.selects req = (r.mnemonic == mnemonicOf i)) ∧
    (∀ op : Nibble, decode req = .reservedOp op → ∀ r ∈ opTable, r.selects req = false)

/-- R58, R123: an `OP` of 0 or 5 to 15 ends with `IllegalOp`, whatever LEN and DIG and whatever the tables hold, the
all-zero word among them; and no other word does. -/
def Obligations.ReservedOpEndsInIllegalOp : Prop :=
  (∀ (R : Roms) (req : RequestWord), (req.toNat / 2 ^ 56 = 0 ∨ 5 ≤ req.toNat / 2 ^ 56) →
    respond R req = { status := 3, label := 0, mod := 0 }) ∧
  (∀ (R : Roms) (req : RequestWord), (respond R req).status = 3 →
    req.toNat / 2 ^ 56 = 0 ∨ 5 ≤ req.toNat / 2 ^ 56)

/-- The same as a step of the machine, from the head of the input list (log entry 1): a next state, with `IllegalOp`. -/
def Obligations.ReservedOpStepRaisesIllegalOp : Prop :=
  ∀ (s : State) (req : RequestWord) (rest : List HostInput),
    (req.toNat / 2 ^ 56 = 0 ∨ 5 ≤ req.toNat / 2 ^ 56) →
    step { s with inputs := .request req :: rest } =
      .next { rspValid := 1, status := 3, label := 0, mod := 0, inputs := rest }

/-- Words written out from R50 and R61 decode to the instructions they stand for: one of each operation. -/
def Obligations.WrittenWordsDecode : Prop :=
  decode 0x1C40063813339A0#60 = .instr (.enc 12#4 #v[4, 0, 0, 6, 3, 8, 1, 3, 3, 3, 9, 10, 0]) ∧
  decode 0x2D6001234567890#60 = .instr (.map 13#4 #v[6, 0, 0, 1, 2, 3, 4, 5, 6, 7, 8, 9, 0]) ∧
  decode 0x3C400638133393F#60 = .instr (.chk 12#4 #v[4, 0, 0, 6, 3, 8, 1, 3, 3, 3, 9, 3, 15]) ∧
  decode 0x4D0678901234567#60 = .instr (.vfy 13#4 #v[0, 6, 7, 8, 9, 0, 1, 2, 3, 4, 5, 6, 7]) ∧
  decode 0xFD4006381333931#60 = .reservedOp 15

/-! ### What the instructions do -/

/-- R110 with R74: ENC of 12 digits always succeeds, whatever the nibble at position 12; `LABEL` is the 12 digits and
the check digit, `MOD` their barcode. Completion of ENC. -/
def Obligations.EncOfTwelveDigitsAppendsAndMaps : Prop :=
  ∀ (d : Latches) (x : Digits12) (s : State), (∀ i : Fin 12, (d[i.val]'(by omega)).toNat = x[i].val) →
    exec (.enc 12#4 d) s =
      .next { s with rspValid := 1, status := 0, label := labelWord (x.push (checkdigit x)),
                     mod := barcode roms (x.push (checkdigit x)) }

/-- R110: ENC of 13 digits that satisfy the check-digit relation succeeds with the same digits. Completion of ENC. -/
def Obligations.EncOfThirteenValidDigitsMaps : Prop :=
  ∀ (d : Latches) (y : Code) (s : State), (∀ i : Fin 13, d[i].toNat = y[i].val) → wsum13 y % 10 = 0 →
    exec (.enc 13#4 d) s =
      .next { s with rspValid := 1, status := 0, label := labelWord y, mod := barcode roms y }

/-- R112: ENC of 13 digits for which the relation fails. -/
def Obligations.EncRejectsFailingChecksum : Prop :=
  ∀ (d : Latches) (y : Code) (s : State), (∀ i : Fin 13, d[i].toNat = y[i].val) → valid13 y = false →
    exec (.enc 13#4 d) s = .next { s with rspValid := 1, status := 2, label := 0, mod := 0 }

/-- R99: MAP of any 13 digits succeeds, the check digit not being validated (completion of MAP); with another count, or
a non-digit among the 13, it ends with `InvalidInput`. -/
def Obligations.MapOfThirteenDigitsMaps : Prop :=
  (∀ (d : Latches) (y : Code) (s : State), (∀ i : Fin 13, d[i].toNat = y[i].val) →
    exec (.map 13#4 d) s =
      .next { s with rspValid := 1, status := 0, label := labelWord y, mod := barcode roms y }) ∧
  (∀ (n : Nibble) (d : Latches) (s : State), (n ≠ 13#4 ∨ ∃ i : Fin 13, 9 < d[i].toNat) →
    exec (.map n d) s = .next { s with rspValid := 1, status := 1, label := 0, mod := 0 })

/-- R77: CHK of 12 digits succeeds, whatever the nibble at position 12, with the 12 digits and the check digit as
`LABEL` and `MOD` zero (completion of CHK); with another count, or a non-digit among the 12, it ends with
`InvalidInput`. -/
def Obligations.ChkOfTwelveDigitsAppends : Prop :=
  (∀ (d : Latches) (x : Digits12) (s : State), (∀ i : Fin 12, (d[i.val]'(by omega)).toNat = x[i].val) →
    exec (.chk 12#4 d) s =
      .next { s with rspValid := 1, status := 0, label := labelWord (x.push (checkdigit x)), mod := 0 }) ∧
  (∀ (n : Nibble) (d : Latches) (s : State), (n ≠ 12#4 ∨ ∃ i : Fin 12, 9 < (d[i.val]'(by omega)).toNat) →
    exec (.chk n d) s = .next { s with rspValid := 1, status := 1, label := 0, mod := 0 })

/-- R78: VFY of 13 digits. With the check-digit relation it succeeds with the digits as `LABEL` (completion of VFY);
without it, `ChecksumMismatch`; with another count, or a non-digit among the 13, `InvalidInput`. `MOD` is always zero. -/
def Obligations.VfyOfThirteenDigitsValidates : Prop :=
  (∀ (d : Latches) (y : Code) (s : State), (∀ i : Fin 13, d[i].toNat = y[i].val) → wsum13 y % 10 = 0 →
    exec (.vfy 13#4 d) s = .next { s with rspValid := 1, status := 0, label := labelWord y, mod := 0 }) ∧
  (∀ (d : Latches) (y : Code) (s : State), (∀ i : Fin 13, d[i].toNat = y[i].val) → wsum13 y % 10 ≠ 0 →
    exec (.vfy 13#4 d) s = .next { s with rspValid := 1, status := 2, label := 0, mod := 0 }) ∧
  (∀ (n : Nibble) (d : Latches) (s : State), (n ≠ 13#4 ∨ ∃ i : Fin 13, 9 < d[i].toNat) →
    exec (.vfy n d) s = .next { s with rspValid := 1, status := 1, label := 0, mod := 0 })

/-- R57, R59, R121: an instruction whose count is not accepted, or with a non-digit below its count, ends with
`InvalidInput`, and no other does. -/
def Obligations.InvalidInputExactlyWhenIllFormed : Prop :=
  (∀ (i : Instr) (s : State), i.wellFormed = false →
    exec i s = .next { s with rspValid := 1, status := 1, label := 0, mod := 0 }) ∧
  (∀ (i : Instr) (s t : State), exec i s = .next t → t.status = 1 → i.wellFormed = false)

/-- R122: `ChecksumMismatch` is raised by ENC with 13 digits and by VFY, after the input checks, when the weighted
sum is no multiple of 10, and by nothing else. -/
def Obligations.ChecksumMismatchExactly : Prop :=
  ∀ (i : Instr) (s t : State), exec i s = .next t →
    (t.status = 2 ↔ ∃ (d : Latches) (y : Code), (i = .enc 13#4 d ∨ i = .vfy 13#4 d) ∧
      (∀ p : Fin 13, d[p].toNat = y[p].val) ∧ wsum13 y % 10 ≠ 0)

/-- R125: the outcome of every request word is the first that applies: `IllegalOp`, `InvalidInput`,
`ChecksumMismatch`, else `OK`, whatever the tables hold. -/
def Obligations.StatusIsTheFirstThatApplies : Prop :=
  ∀ (R : Roms) (req : RequestWord),
    (respond R req).status =
      match decode req with
      | .reservedOp _ => 3
      | .instr i =>
        if i.wellFormed = false then 1
        else if i.mustValidate = true ∧ nibbleSum13 i.digits % 10 ≠ 0 then 2
        else 0

/-- R124: a transaction that ends in an error writes its code, zeros and `RSP_VALID`, and leaves no other trace: the
errors of the instructions, and that of a reserved operation code. -/
def Obligations.ErrorLeavesOnlyItsCode : Prop :=
  (∀ (i : Instr) (s t : State), exec i s = .next t → t.status ≠ 0 →
    t = { s with rspValid := 1, status := t.status, label := 0, mod := 0 }) ∧
  (∀ s : State, execReservedOp s = { s with rspValid := 1, status := 3, label := 0, mod := 0 })

/-- The frame of the four instructions: the four response registers are the destination of each, all else is
unchanged; CHK and VFY leave `MOD` zero (R15 to R18, R77, R78). -/
def Obligations.InstructionsWriteOnlyTheResponse : Prop :=
  ∀ (i : Instr) (s t : State), exec i s = .next t →
    t.rspValid = 1 ∧ t.inputs = s.inputs ∧
    ∀ (n : Nibble) (d : Latches), i = .chk n d ∨ i = .vfy n d → t.mod = 0

/-- R113: two transactions with the same request word write the same values, whatever the states. -/
def Obligations.ResponseDependsOnTheRequestAlone : Prop :=
  ∀ (s s' t t' : State) (req : RequestWord) (rest rest' : List HostInput),
    step { s with inputs := .request req :: rest } = .next t →
    step { s' with inputs := .request req :: rest' } = .next t' → t.response = t'.response

/-- R56: nibbles at positions `n` and above have no effect on the response. -/
def Obligations.NibblesAboveTheCountAreIgnored : Prop :=
  ∀ (R : Roms) (req req' : RequestWord), opField req = opField req' → lenField req = lenField req' →
    (∀ i : Fin 13, i.val < (lenField req).toNat → (loadLatches req)[i] = (loadLatches req')[i]) →
    respond R req = respond R req'

/-- D8: every barcode ENC puts out encodes a code that satisfies the check-digit relation, and `LABEL` is it. -/
def Obligations.EncOutputsOnlyValidCodes : Prop :=
  ∀ (R : Roms) (n : Nibble) (d : Latches), (encResponse R n d).status = 0 →
    ∃ y : Code, wsum13 y % 10 = 0 ∧ (encResponse R n d).label = labelWord y ∧
      (encResponse R n d).mod = barcode R y

/-- R16: the meaning of every value of `STATUS`, and each value is produced by some request. -/
def Obligations.EveryStatusIsProduced : Prop :=
  (statusMeaning 0 = none ∧ ∀ e : ErrorKind, statusMeaning e.code = some e) ∧
  ∀ v : BitVec 2, ∃ req : RequestWord, (respond roms req).status = v

/-! ### The check-digit arithmetic -/

/-- R76 with R72: the bounds of the sums, both reached, and the relation between the two. -/
def Obligations.WeightedSumBounds : Prop :=
  (∀ x : Digits12, wsum12 x ≤ 216) ∧ (∀ y : Code, wsum13 y ≤ 225) ∧
  (∃ x : Digits12, wsum12 x = 216) ∧ (∃ y : Code, wsum13 y = 225) ∧
  (∀ (x : Digits12) (g : Digit), wsum13 (x.push g) = wsum12 x + g.val)

/-- R73: the check digit is the floored remainder, the only digit that completes the code, and what a realisation
without negative numbers computes; `checksum13` is the same remainder of the 13 digits; with the source's example. -/
def Obligations.CheckDigitIsTheFlooredRemainder : Prop :=
  (∀ x : Digits12, ((checkdigit x).val : Int) = Int.fmod (10 - (wsum12 x : Int)) 10) ∧
  (∀ y : Code, ((checksum13 y).val : Int) = Int.fmod (10 - (wsum13 y : Int)) 10) ∧
  (∀ x : Digits12, (checkdigit x).val = (10 - wsum12 x % 10) % 10) ∧
  (∀ x : Digits12, (checkdigit x).val = if wsum12 x % 10 = 0 then 0 else 10 - wsum12 x % 10) ∧
  (∀ (x : Digits12) (g : Digit), checksum13 (x.push g) = 0 ↔ g = checkdigit x) ∧
  wsum12 #v[4, 0, 0, 6, 3, 8, 1, 3, 3, 3, 9, 3] = 89 ∧ checkdigit #v[4, 0, 0, 6, 3, 8, 1, 3, 3, 3, 9, 3] = 1

/-- R75: the validation is the source's recomputed value being zero. -/
def Obligations.ValidExactlyWhenChecksumIsZero : Prop :=
  ∀ y : Code, (valid13 y = true ↔ wsum13 y % 10 = 0) ∧ (valid13 y = true ↔ checksum13 y = 0)

/-- The spec's own inference R79, "`valid13(d)` holds if and only if `d[12] = checkdigit(d)`", from R72, R73, R75. -/
def Obligations.ValidExactlyWhenLastDigitIsCheckDigit : Prop :=
  ∀ (x : Digits12) (g : Digit), valid13 (x.push g) = true ↔ g = checkdigit x

/-- The spec's own inference in R78, "a valid code with one digit changed is always invalid", from R72 and R75. -/
def Obligations.ChangedDigitIsCaught : Prop :=
  ∀ (y : Code) (i : Fin 13) (g : Digit), valid13 y = true → g ≠ y[i] → valid13 (y.set i g) = false

/-! ### The memories and the mapper -/

/-- R31: selector and codeset codes; a selector zero-extended to 2 bits is the codeset it selects; code 3 is never
formed; and the index in the pattern ROM is the code. -/
def Obligations.CodesetCodes : Prop :=
  (Selector.L.code = 0 ∧ Selector.G.code = 1) ∧
  (Codeset.L.code = 0 ∧ Codeset.G.code = 1 ∧ Codeset.R.code = 2) ∧
  (∀ k : Selector, k.codeset.code = k.code.zeroExtend 2) ∧
  (∀ c : Codeset, c.code ≠ 3 ∧ c.index.val = c.code.toNat)

/-- R91, R92: the pattern of every position, for all ROM contents: bit `6 - i` of the first digit's parity row chooses
between codesets 0 and 1 at positions 1 to 6, and positions 7 to 12 use codeset 2. -/
def Obligations.PatternSelection : Prop :=
  ∀ (R : Roms) (y : Code) (i : Nat) (h : 1 ≤ i ∧ i ≤ 12),
    (i ≤ 6 → (R.parity[y[0]]).getLsbD (6 - i) = false → pat R y i h = R.pattern[0][y[i]'(by omega)]) ∧
    (i ≤ 6 → (R.parity[y[0]]).getLsbD (6 - i) = true → pat R y i h = R.pattern[1][y[i]'(by omega)]) ∧
    (7 ≤ i → pat R y i h = R.pattern[2][y[i]'(by omega)])

/-- R98: length, guards and the fixed modules, for every code and all ROM contents; `MOD` is never zero. -/
def Obligations.AssembledLengthAndGuards : Prop :=
  ∀ (R : Roms) (y : Code),
    (assemble R y).length = 95 ∧
    (assemble R y).take 3 = [true, false, true] ∧
    (assemble R y).drop 92 = [true, false, true] ∧
    ((assemble R y).drop 45).take 5 = [false, true, false, true, false] ∧
    (∀ m ∈ [0, 2, 46, 48, 92, 94], (assemble R y)[m]? = some true) ∧
    (∀ m ∈ [1, 45, 47, 49, 93], (assemble R y)[m]? = some false) ∧
    barcode R y ≠ 0

/-- R97: where each module of each pattern stands, and the value of `MOD` as a concatenation. -/
def Obligations.ModulePlacement : Prop :=
  ∀ (R : Roms) (y : Code),
    (∀ (i : Nat) (h : 1 ≤ i ∧ i ≤ 6) (j : Nat), j < 7 →
      (assemble R y)[3 + 7 * (i - 1) + j]? = some ((pat R y i ⟨h.1, by omega⟩).getLsbD (6 - j))) ∧
    (∀ (i : Nat) (h : 7 ≤ i ∧ i ≤ 12) (j : Nat), j < 7 →
      (assemble R y)[50 + 7 * (i - 7) + j]? = some ((pat R y i ⟨by omega, h.2⟩).getLsbD (6 - j))) ∧
    assemble R y =
      [true, false, true] ++ leftBlock R y ++ [false, true, false, true, false] ++ rightBlock R y
        ++ [true, false, true] ∧
    barcode R y =
      0b101#3 ++ pat R y 1 ++ pat R y 2 ++ pat R y 3 ++ pat R y 4 ++ pat R y 5 ++ pat R y 6 ++ 0b01010#5
        ++ pat R y 7 ++ pat R y 8 ++ pat R y 9 ++ pat R y 10 ++ pat R y 11 ++ pat R y 12 ++ 0b101#3

/-- R18: module `m` of the sequence is bit `94 - m` of `MOD`. -/
def Obligations.ModHoldsTheModuleSequence : Prop :=
  ∀ (R : Roms) (y : Code) (m : Fin 95), (assemble R y)[m.val]? = some (moduleAt (barcode R y) m)

/-- The spec's own inference R100, from R91, R92, R97: what each module depends on. Only the clause about `roms` rests
on the default tables (log entry 3). -/
def Obligations.ModuleDependence : Prop :=
  ∀ (R : Roms) (y z : Code),
    (∀ (i : Nat) (h : 1 ≤ i ∧ i ≤ 6), y[0] = z[0] → y[i]'(by omega) = z[i]'(by omega) →
      ∀ m : Fin 95, 3 + 7 * (i - 1) ≤ m.val → m.val < 10 + 7 * (i - 1) →
        moduleAt (barcode R y) m = moduleAt (barcode R z) m) ∧
    (∀ (i : Nat) (h : 7 ≤ i ∧ i ≤ 12), y[i]'(by omega) = z[i]'(by omega) →
      ∀ m : Fin 95, 50 + 7 * (i - 7) ≤ m.val → m.val < 57 + 7 * (i - 7) →
        moduleAt (barcode R y) m = moduleAt (barcode R z) m) ∧
    ((∀ i : Fin 13, i ≠ 0 → y[i] = z[i]) → ∀ m : Fin 95, m.val < 3 ∨ 44 < m.val →
        moduleAt (barcode R y) m = moduleAt (barcode R z) m) ∧
    ((∀ i : Fin 13, i ≠ 0 → y[i] = z[i]) → ∀ m : Fin 95, m.val < 10 ∨ 44 < m.val →
        moduleAt (barcode roms y) m = moduleAt (barcode roms z) m) ∧
    ((∀ i : Fin 13, i ≠ 12 → y[i] = z[i]) → ∀ m : Fin 95, m.val < 85 ∨ 91 < m.val →
        moduleAt (barcode R y) m = moduleAt (barcode R z) m)

/-- The spec's own inference in R100, from R33 and R36: with the default tables (log entry 3) two codes with the same
barcode are the same code. -/
def Obligations.DefaultBarcodeDeterminesTheCode : Prop :=
  ∀ y z : Code, barcode roms y = barcode roms z → y = z

/-- Properties of the default tables, R33 and R36 (a) to (e), which are general knowledge by the spec's own mark
(U3, log entry 3). -/
def Obligations.DefaultTableProperties : Prop :=
  (∀ f g : Digit, readParity roms f = readParity roms g → f = g) ∧
  (∀ f : Digit, rowSelector (readParity roms f) 0 = .L) ∧
  (∀ k : Fin 6, rowSelector (readParity roms 0) k = .L) ∧
  (∀ f : Digit, f ≠ 0 → ((List.finRange 6).filter fun k => rowSelector (readParity roms f) k == .G).length = 3) ∧
  (∀ g : Digit, (entryModules (readPattern roms .L g)).count true % 2 = 1 ∧
    (entryModules (readPattern roms .G g)).count true % 2 = 0 ∧
    (entryModules (readPattern roms .R g)).count true % 2 = 0) ∧
  (∀ g : Digit, readPattern roms .R g = ~~~(readPattern roms .L g)) ∧
  (∀ g : Digit, entryModules (readPattern roms .G g) = (entryModules (readPattern roms .R g)).reverse) ∧
  (∀ g : Digit, (entryModules (readPattern roms .L g)).head? = some false ∧
    (entryModules (readPattern roms .L g)).getLast? = some true ∧
    (entryModules (readPattern roms .G g)).head? = some false ∧
    (entryModules (readPattern roms .G g)).getLast? = some true ∧
    (entryModules (readPattern roms .R g)).head? = some true ∧
    (entryModules (readPattern roms .R g)).getLast? = some false) ∧
  (∀ f g : Digit, readPattern roms .L f ≠ readPattern roms .G g ∧ readPattern roms .L f ≠ readPattern roms .R g ∧
    readPattern roms .G f ≠ readPattern roms .R g) ∧
  (∀ f g : Digit, f ≠ g → readPattern roms .L f ≠ readPattern roms .L g ∧
    readPattern roms .G f ≠ readPattern roms .G g ∧ readPattern roms .R f ≠ readPattern roms .R g)

/-! ### Whole operations -/

/-- R17: the nibbles of a code's label are its digits, position by position. -/
def Obligations.LabelShowsTheDigits : Prop :=
  ∀ (y : Code) (i : Fin 13), (labelNibble (labelWord y) i).toNat = y[i].val

/-- The spec's own inference in R13: the value reads the digits in order, is below 10^13 and, all 13 digits being
given, determines the code. -/
def Obligations.CodeValueDeterminesTheCode : Prop :=
  codeValue #v[4, 0, 0, 6, 3, 8, 1, 3, 3, 3, 9, 3, 1] = 4006381333931 ∧
  (∀ y : Code, codeValue y < 10 ^ 13) ∧ (∀ y z : Code, codeValue y = codeValue z → y = z)

/-- The spec's own inference R111, from R110 and R73 to R75, the source's properties Q1 and Q5, for all ROM contents:
ENC of 12 digits succeeds; and whenever ENC succeeds, ENC with count 13 of its `LABEL` gives the same response. -/
def Obligations.ReencodingTheLabelReproducesTheResponse : Prop :=
  ∀ (R : Roms) (req : RequestWord), opField req = 1#4 →
    (lenField req = 12#4 → (∀ i : Fin 13, i.val < 12 → (loadLatches req)[i].toNat ≤ 9) → (respond R req).status = 0) ∧
    ((respond R req).status = 0 →
      respond R (packRequest 1#4 13#4 (labelLatches (respond R req).label)) = respond R req)

/-- The spec's own inference R114, from R77, R78, R99, R110, for all ROM contents: how the operations compose. -/
def Obligations.OperationsCompose : Prop :=
  ∀ (R : Roms) (d : Latches),
    ((encResponse R 13#4 d).status = 0 ↔ (vfyResponse 13#4 d).status = 0) ∧
    ((encResponse R 13#4 d).status = 0 →
      (encResponse R 13#4 d).mod = (mapResponse R 13#4 d).mod ∧ (encResponse R 13#4 d).label = (vfyResponse 13#4 d).label) ∧
    ((encResponse R 12#4 d).status = 0 ↔ (chkResponse 12#4 d).status = 0) ∧
    ((encResponse R 12#4 d).status = 0 →
      (encResponse R 12#4 d).label = (chkResponse 12#4 d).label ∧
      (encResponse R 12#4 d).mod = (mapResponse R 13#4 (labelLatches (chkResponse 12#4 d).label)).mod) ∧
    (∀ n : Nibble, (vfyResponse n d).status = 0 ∨ (vfyResponse n d).status = 2 → (mapResponse R n d).status = 0)

/-! ### Invariants and runs -/

/-- Every step keeps the registers sound, from any sound state (R15 to R18, R124). -/
def Obligations.SoundRegistersArePreserved : Prop :=
  ∀ s t : State, s.Sound → step s = .next t → t.Sound

/-- The registers are sound after reset. -/
def Obligations.ResetRegistersAreSound : Prop := State.reset.Sound

/-- R149, the observation of a run: from any state, the responses the host reads to a sequence of requests are the
responses of the requests, one by one. The sequence is the input list (log entry 1). -/
def Obligations.RunObservesTheResponses : Prop :=
  ∀ (s : State) (reqs : List RequestWord),
    observe reqs.length { s with inputs := reqs.map .request } = reqs.map (respond roms)

/-- R149, the final state of a run: registers equal to the response of the last request, which is the end state of a
run of that request alone (R22, R128); with no request the state is as it was. The sequence is the input list (log
entry 1). -/
def Obligations.RunEndsWithTheLastResponse : Prop :=
  ∀ (s : State) (reqs : List RequestWord),
    core.run reqs.length { s with inputs := reqs.map .request } =
      match reqs.getLast? with
      | none => .next { s with inputs := [] }
      | some req => .next { rspValid := 1, status := (respond roms req).status, label := (respond roms req).label,
                            mod := (respond roms req).mod, inputs := [] }

/-! ### The toolchain and the source's strings -/

/-- The spec's own inference R63, from R54, R57, R59, R61, R110, for every string and all ROM contents: the unit's ENC
of the assembled string answers what the source's `encode` answers. The reference `sourceEncode` is the model's
(log entry 11). -/
def Obligations.EncOfAssembledStringMatchesTheSource : Prop :=
  ∀ (R : Roms) (text : List Char),
    match sourceEncode R text with
    | .ok b =>
      (respond R (assembleLine ⟨.enc, text⟩)).status = 0 ∧
      (respond R (assembleLine ⟨.enc, text⟩)).mod = modWord b.modules ∧ b.modules.length = 95 ∧
      b.label = (List.finRange 13).map fun i =>
        nibbleChar (labelNibble (respond R (assembleLine ⟨.enc, text⟩)).label i)
    | .error .invalidInput => respond R (assembleLine ⟨.enc, text⟩) = ⟨1, 0, 0⟩
    | .error .checksumMismatch => respond R (assembleLine ⟨.enc, text⟩) = ⟨2, 0, 0⟩

/-- R62: disassembly inverts assembly on every word with a count of at most 13 and zeros in the ignored nibbles, and
prints a well-formed line. -/
def Obligations.AssemblyRestoresDisassembledWord : Prop :=
  ∀ req : RequestWord, (disassemble req).op.wellFormed = true ∧
    ((lenField req).toNat ≤ 13 →
      (∀ i : Fin 13, (lenField req).toNat ≤ i.val → (loadLatches req)[i] = 0) →
      assembleLine (disassemble req) = req)
end

