-- ==== Sys2Proof/Laws/CheckDigit.lean ====
section
/-! SUPPORT. The value of the complement to ten. -/

namespace Sys2Proof.Machine

/-- The complement to ten is the residue of `-w`. -/
theorem tenComplement_val (w : Nat) : (tenComplement w).val = (10 - w % 10) % 10 := by
  simp only [tenComplement]
  omega

theorem tenComplement_eq_zero (w : Nat) : tenComplement w = 0 ↔ w % 10 = 0 := by
  rw [Fin.ext_iff, tenComplement_val]
  simp only [Fin.val_zero]
  omega

end Sys2Proof.Machine
end

