-- ==== Sys2Proof/Laws/Decode.lean ====
section
/-! SUPPORT. The bits of the request word's fields, and the one case split on decoding. -/

namespace Sys2Proof

@[simp] theorem getElem_loadLatches (req : RequestWord) (i : Nat) (h : i < 13) :
    (loadLatches req)[i] = req.extractLsb' (48 - 4 * i) 4 := by
  simp [loadLatches]

/-- Bits of a vector with one nibble put behind it. -/
theorem getLsbD_append_nibble {w : Nat} (v : BitVec w) (g : Nibble) (k : Nat) :
    (v ++ g : BitVec (w + 4)).getLsbD k = if k < 4 then g.getLsbD k else v.getLsbD (k - 4) := by
  rw [BitVec.getLsbD_append]

/-- Bit `b` of the nibble at position `p` of a packed field. -/
theorem packNibbles_getLsbD (d : Latches) (p b : Nat) (hp : p < 13) (hb : b < 4) :
    (packNibbles d).getLsbD (48 - 4 * p + b) = (d[p]).getLsbD b := by
  unfold packNibbles
  interval_cases p <;> (repeat rw [getLsbD_append_nibble, if_neg (by omega)]) <;>
    (try rw [getLsbD_append_nibble, if_pos (by omega)]) <;> (congr 1; omega)

/-- Bits of a request word: `DIG` below bit 52, then `LEN`, then `OP`. -/
theorem packRequest_getLsbD (op n : Nibble) (d : Latches) (k : Nat) :
    (packRequest op n d).getLsbD k =
      if k < 52 then (packNibbles d).getLsbD k
      else if k < 56 then n.getLsbD (k - 52) else op.getLsbD (k - 56) := by
  unfold packRequest
  rw [show (op ++ n ++ packNibbles d : RequestWord).getLsbD k =
    if k < 52 then (packNibbles d).getLsbD k else (op ++ n).getLsbD (k - 52) from BitVec.getLsbD_append,
    show (op ++ n).getLsbD (k - 52) = if k - 52 < 4 then n.getLsbD (k - 52) else op.getLsbD (k - 52 - 4) from
      BitVec.getLsbD_append]
  repeat' split
  all_goals first | rfl | omega

/-- The nibble at position `p` of a packed field is the one packed there. -/
theorem extract_packNibbles (d : Latches) (p : Nat) (hp : p < 13) :
    (packNibbles d).extractLsb' (48 - 4 * p) 4 = d[p] := by
  ext b hb
  rw [BitVec.getElem_extractLsb', packNibbles_getLsbD d p b hp hb, BitVec.getLsbD_eq_getElem hb]

/-- Everything decoding can answer. -/
theorem decode_cases (req : RequestWord) :
    (opField req = 1#4 ∧ decode req = .instr (.enc (lenField req) (loadLatches req))) ∨
    (opField req = 2#4 ∧ decode req = .instr (.map (lenField req) (loadLatches req))) ∨
    (opField req = 3#4 ∧ decode req = .instr (.chk (lenField req) (loadLatches req))) ∨
    (opField req = 4#4 ∧ decode req = .instr (.vfy (lenField req) (loadLatches req))) ∨
    ((opField req ≠ 1#4 ∧ opField req ≠ 2#4 ∧ opField req ≠ 3#4 ∧ opField req ≠ 4#4) ∧
      decode req = .reservedOp (opField req)) := by
  unfold decode
  split <;> [skip; split <;> [skip; split <;> [skip; split]]] <;> simp_all

end Sys2Proof
end

