-- ==== Sys2Proof/Laws/Mapper.lean ====
section
/-! SUPPORT. Lengths of module sequences, and the bits of `modWord`. -/

namespace Sys2Proof.Machine

@[simp] theorem entryModules_length (p : PatternEntry) : (entryModules p).length = 7 := by
  simp [entryModules]

theorem entryModules_getElem? (p : PatternEntry) (j : Nat) (hj : j < 7) :
    (entryModules p)[j]? = some (p.getLsbD (6 - j)) := by
  simp [entryModules, hj]

@[simp] theorem leftBlock_length (R : Roms) (y : Code) : (leftBlock R y).length = 42 := by
  simp [leftBlock]

@[simp] theorem rightBlock_length (R : Roms) (y : Code) : (rightBlock R y).length = 42 := by
  simp [rightBlock]

/-- Shifting a sequence of modules in from the right: the last one is bit 0, and what was there moves up. -/
theorem foldl_shiftConcat_getLsbD (ms : List Bool) (v : ModWord) (k : Nat) (hk : k < 95) :
    (ms.foldl (fun v b => v.shiftConcat b) v).getLsbD k =
      if h : k < ms.length then ms[ms.length - 1 - k] else v.getLsbD (k - ms.length) := by
  induction ms generalizing v with
  | nil => simp
  | cons b ms ih =>
    rw [List.foldl_cons, ih]
    by_cases h : k < ms.length
    · have h' : k < (b :: ms).length := by simp; omega
      have e : (b :: ms).length - 1 - k = (ms.length - 1 - k) + 1 := by simp; omega
      simp only [h, h', dif_pos, e, List.getElem_cons_succ]
    · by_cases hk' : k = ms.length
      · subst hk'
        simp
      · have h' : ¬ k < ms.length + 1 := by omega
        have e : k - ms.length ≠ 0 := by omega
        have e' : k - ms.length < 95 := by omega
        simp only [h, h', dif_neg, not_false_eq_true, List.length_cons, BitVec.getLsbD_shiftConcat, e, e', if_false,
          decide_true, Bool.true_and, Nat.sub_sub]

end Sys2Proof.Machine
end

