-- ==== Sys2Proof/Laws/Operands.lean ====
section
/-! SUPPORT. What reading the operand digits gives, and what the two checked readings can answer. -/

namespace Sys2Proof.Machine

/-- The latches are read as `x` exactly when the first `k` of them hold the digits of `x`. -/
theorem readDigits_eq_some {k : Nat} {d : Latches} {hk : k ≤ 13} {x : Vector Digit k} :
    readDigits k d hk = some x ↔ ∀ i : Fin k, (d[i.val]'(by omega)).toNat = x[i].val := by
  unfold readDigits
  split
  · rename_i h
    simp only [Option.some.injEq]
    constructor
    · rintro rfl i
      simp
    · intro hx
      ext i hi
      simpa using hx ⟨i, hi⟩
  · rename_i h
    simp only [reduceCtorEq, false_iff]
    intro hx
    refine h fun i => ?_
    have := x[i].isLt
    have := hx i
    omega

/-- The latches are not read exactly when one of the first `k` holds no digit. -/
theorem readDigits_eq_none {k : Nat} {d : Latches} {hk : k ≤ 13} :
    readDigits k d hk = none ↔ ¬ ∀ i : Fin k, (d[i.val]'(by omega)).toNat ≤ 9 := by
  unfold readDigits
  split <;> simp_all

/-- Everything the 12-digit checks can answer. -/
theorem withDigits12_cases (n : Nibble) (d : Latches) (use : Digits12 → Response) :
    (∃ x : Digits12, n = 12#4 ∧ (∀ i : Fin 12, (d[i.val]'(by omega)).toNat = x[i].val) ∧
      withDigits12 n d use = use x) ∨
    (¬ (n = 12#4 ∧ ∀ i : Fin 12, (d[i.val]'(by omega)).toNat ≤ 9) ∧
      withDigits12 n d use = raise .invalidInput) := by
  unfold withDigits12
  by_cases hn : n = 12#4
  · cases h : readDigits 12 d with
    | some x => exact .inl ⟨x, hn, readDigits_eq_some.mp h, by simp [hn]⟩
    | none => exact .inr ⟨fun ⟨_, hd⟩ => readDigits_eq_none.mp h hd, by simp [hn]⟩
  · exact .inr ⟨fun ⟨h, _⟩ => hn h, by simp [hn]⟩

/-- Everything the 13-digit checks can answer. -/
theorem withDigits13_cases (n : Nibble) (d : Latches) (use : Code → Response) :
    (∃ y : Code, n = 13#4 ∧ (∀ i : Fin 13, d[i].toNat = y[i].val) ∧ withDigits13 n d use = use y) ∨
    (¬ (n = 13#4 ∧ ∀ i : Fin 13, d[i].toNat ≤ 9) ∧ withDigits13 n d use = raise .invalidInput) := by
  unfold withDigits13
  by_cases hn : n = 13#4
  · cases h : readDigits 13 d with
    | some y => exact .inl ⟨y, hn, readDigits_eq_some.mp h, by simp [hn]⟩
    | none => exact .inr ⟨fun ⟨_, hd⟩ => readDigits_eq_none.mp h hd, by simp [hn]⟩
  · exact .inr ⟨fun ⟨h, _⟩ => hn h, by simp [hn]⟩

theorem withDigits12_eq {d : Latches} {x : Digits12} (use : Digits12 → Response)
    (h : ∀ i : Fin 12, (d[i.val]'(by omega)).toNat = x[i].val) : withDigits12 12#4 d use = use x := by
  simp [withDigits12, readDigits_eq_some.mpr h]

theorem withDigits13_eq {d : Latches} {y : Code} (use : Code → Response)
    (h : ∀ i : Fin 13, d[i].toNat = y[i].val) : withDigits13 13#4 d use = use y := by
  simp [withDigits13, readDigits_eq_some.mpr h]

@[simp] theorem getElem_codeLatches (y : Code) (i : Nat) (h : i < 13) :
    (codeLatches y)[i] = digitNibble y[i] := by
  simp [codeLatches]

@[simp] theorem digitNibble_toNat (g : Digit) : (digitNibble g).toNat = g.val := by
  have := g.isLt
  simp [digitNibble]
  omega

end Sys2Proof.Machine
end

