-- ==== Sys2Proof/Laws/PerInstr.lean ====
section
/-! SUPPORT. Statements about every instruction, one lemma per constructor. -/

namespace Sys2Proof.Laws.TableMatch

/-- The encoding of an instruction, at all operand values, is selected by the row of its mnemonic in the opcode
table (R53). -/
def Statement (i : Instr) : Prop :=
  ∃ r ∈ opTable, r.mnemonic = mnemonicOf i ∧ r.selects (encode i) = true

/-- Under the mask of R53 only the operation code of a word is left. -/
theorem packRequest_and_mask (op n : Nibble) (d : Latches) :
    packRequest op n d &&& 0xF00000000000000#60 = op ++ 0#56 := by
  have hm : ∀ k : Fin 60, (0xF00000000000000#60).getLsbD k.val = decide (56 ≤ k.val) := by decide
  ext k hk
  rw [BitVec.getElem_and, ← BitVec.getLsbD_eq_getElem, packRequest_getLsbD,
    show (op ++ 0#56 : RequestWord)[k] = if k < 56 then (0#56).getLsbD k else op.getLsbD (k - 56) from by
      rw [← BitVec.getLsbD_eq_getElem]; exact BitVec.getLsbD_append]
  rw [← BitVec.getLsbD_eq_getElem hk, hm ⟨k, hk⟩]
  by_cases h : k < 56
  · simp [h, Nat.not_le.mpr h]
  · simp [h, Nat.not_lt.mp h, show ¬ k < 52 by omega]

theorem enc (n : Nibble) (d : Latches) : Statement (.enc n d) :=
  ⟨⟨"ENC", 0x100000000000000#60, 0xF00000000000000#60⟩, by simp [opTable], rfl,
    by simp only [OpRow.selects, encode, packRequest_and_mask, opcodeOf]; decide⟩

theorem map (n : Nibble) (d : Latches) : Statement (.map n d) :=
  ⟨⟨"MAP", 0x200000000000000#60, 0xF00000000000000#60⟩, by simp [opTable], rfl,
    by simp only [OpRow.selects, encode, packRequest_and_mask, opcodeOf]; decide⟩

theorem chk (n : Nibble) (d : Latches) : Statement (.chk n d) :=
  ⟨⟨"CHK", 0x300000000000000#60, 0xF00000000000000#60⟩, by simp [opTable], rfl,
    by simp only [OpRow.selects, encode, packRequest_and_mask, opcodeOf]; decide⟩

theorem vfy (n : Nibble) (d : Latches) : Statement (.vfy n d) :=
  ⟨⟨"VFY", 0x400000000000000#60, 0xF00000000000000#60⟩, by simp [opTable], rfl,
    by simp only [OpRow.selects, encode, packRequest_and_mask, opcodeOf]; decide⟩

end Sys2Proof.Laws.TableMatch
end

