-- ==== Sys2Proof/Laws/State.lean ====
section
/-! SUPPORT. One lemma per field per update of the state, and what one step of each kind comes to. -/

namespace Sys2Proof.Machine

@[simp] theorem State.complete_rspValid (s : State) (r : Response) : (s.complete r).rspValid = 1 := rfl
@[simp] theorem State.complete_status (s : State) (r : Response) : (s.complete r).status = r.status := rfl
@[simp] theorem State.complete_label (s : State) (r : Response) : (s.complete r).label = r.label := rfl
@[simp] theorem State.complete_mod (s : State) (r : Response) : (s.complete r).mod = r.mod := rfl
@[simp] theorem State.complete_inputs (s : State) (r : Response) : (s.complete r).inputs = s.inputs := rfl
@[simp] theorem State.complete_response (s : State) (r : Response) : (s.complete r).response = r := rfl

@[simp] theorem State.reset_rspValid : State.reset.rspValid = 0 := rfl
@[simp] theorem State.reset_status : State.reset.status = 0 := rfl
@[simp] theorem State.reset_label : State.reset.label = 0 := rfl
@[simp] theorem State.reset_mod : State.reset.mod = 0 := rfl
@[simp] theorem State.reset_inputs : State.reset.inputs = [] := rfl

@[simp] theorem State.resetEvent_rspValid (s : State) : s.resetEvent.rspValid = 0 := rfl
@[simp] theorem State.resetEvent_status (s : State) : s.resetEvent.status = 0 := rfl
@[simp] theorem State.resetEvent_label (s : State) : s.resetEvent.label = 0 := rfl
@[simp] theorem State.resetEvent_mod (s : State) : s.resetEvent.mod = 0 := rfl
@[simp] theorem State.resetEvent_inputs (s : State) : s.resetEvent.inputs = s.inputs := rfl

@[simp] theorem raise_status (e : ErrorKind) : (raise e).status = e.code := rfl
@[simp] theorem raise_label (e : ErrorKind) : (raise e).label = 0 := rfl
@[simp] theorem raise_mod (e : ErrorKind) : (raise e).mod = 0 := rfl
@[simp] theorem succeed_status (l : LabelWord) (m : ModWord) : (succeed l m).status = 0 := rfl
@[simp] theorem succeed_label (l : LabelWord) (m : ModWord) : (succeed l m).label = l := rfl
@[simp] theorem succeed_mod (l : LabelWord) (m : ModWord) : (succeed l m).mod = m := rfl

@[simp] theorem withFetchWord_inputs (s : State) (nbits w : Nat) :
    (s.withFetchWord nbits w).inputs = .request (BitVec.ofNat 60 (w % 2 ^ nbits)) :: s.inputs := rfl

theorem takeInput_nil {s : State} (h : s.inputs = []) : takeInput s = none := by
  simp [takeInput, h]

theorem takeInput_cons {s : State} {x : HostInput} {rest : List HostInput} (h : s.inputs = x :: rest) :
    takeInput s = some (x, { s with inputs := rest }) := by
  simp [takeInput, h]

/-- Every instruction completes its transaction with its response. -/
theorem exec_eq (i : Instr) (s : State) : exec i s = .next (s.complete (instrResponse roms i)) := by
  cases i <;> rfl

/-- The error of a raised response is never `OK`. -/
theorem ErrorKind.code_ne_ok (e : ErrorKind) : e.code ≠ statusOk := by
  cases e <;> decide

/-- Everything a step can do: nothing, a reset, or the transaction of the request at the head. -/
theorem step_cases (s : State) :
    (s.inputs = [] ∧ step s = .next s) ∨
    (∃ rest, s.inputs = .reset :: rest ∧ step s = .next { State.reset with inputs := rest }) ∨
    (∃ req rest, s.inputs = .request req :: rest ∧
      step s = .next ({ s with inputs := rest }.complete (respond roms req))) := by
  rcases h : s.inputs with _ | ⟨x | _, rest⟩
  · exact .inl ⟨rfl, by simp [step, takeInput_nil h]⟩
  · refine .inr (.inr ⟨x, rest, rfl, ?_⟩)
    simp only [step, takeInput_cons h, respond]
    cases decode x with
    | instr i => simp [exec_eq]
    | reservedOp op => rfl
  · exact .inr (.inl ⟨rest, rfl, by simp [step, takeInput_cons h, State.resetEvent]⟩)

end Sys2Proof.Machine
end

