-- ==== Sys2Proof/Tests/Slice0.lean ====
section
/-! SUPPORT. Tests against the vectors of `95_test_vectors.md` and the examples of the rules, the smoke tests of
`wellFormed`, and a witness for the hypotheses of every statement. Barcodes rest on the default tables (log entry 3). -/

namespace Sys2Proof.Tests

open Sys2Proof Sys2Proof.Machine

/-- The next state, if there is one. -/
def nextOf : Host.Outcome State Fault Refusal → Option State
  | .next s => some s
  | .fault _ => none
  | .refused _ => none

/-- `RSP_VALID` and the response after the first step from reset with the word presented. -/
def firstResponse (w : Nat) : Option (BitVec 1 × Response) :=
  (nextOf (step (State.reset.withFetchWord 64 w))).map fun s => (s.rspValid, s.response)

/-! ### Decoding: words written out from R50 and R61 -/

/-- R61: `ENC "40063813339a"`. -/
theorem test_decode_enc : decode 0x1C40063813339A0#60 = .instr (.enc 12 #v[4, 0, 0, 6, 3, 8, 1, 3, 3, 3, 9, 10, 0]) := by
  decide

/-- R50, bit by bit: `OP` 0010, `LEN` 1101, digits 0 1 2 … 9 0 1 2. -/
theorem test_decode_map :
    decode 0b001011010000000100100011010001010110011110001001000000010010#60 =
      .instr (.map 13 #v[0, 1, 2, 3, 4, 5, 6, 7, 8, 9, 0, 1, 2]) := by decide

/-- V-CHK-8: the ignored nibble is read as it stands. -/
theorem test_decode_chk : decode 0x3C400638133393F#60 = .instr (.chk 12 #v[4, 0, 0, 6, 3, 8, 1, 3, 3, 3, 9, 3, 15]) := by
  decide

/-- V-VFY-5. -/
theorem test_decode_vfy : decode 0x4D0678901234567#60 = .instr (.vfy 13 #v[0, 6, 7, 8, 9, 0, 1, 2, 3, 4, 5, 6, 7]) := by
  decide

/-- R58: 0 and 5, next to the assigned codes, and 15. -/
theorem test_decode_reserved :
    decode 0#60 = .reservedOp 0 ∧ decode 0x500000000000000#60 = .reservedOp 5 ∧
      decode 0xFD4006381333931#60 = .reservedOp 15 := by decide

theorem test_decodeTableWord :
    decodeTableWord 64 0x4D0678901234567 = some (.vfy 13 #v[0, 6, 7, 8, 9, 0, 1, 2, 3, 4, 5, 6, 7]) ∧
      decodeTableWord 64 0x14D0678901234567 = none ∧ decodeTableWord 64 0 = none := by decide

/-- R61, the first and fifth example, a string of 14 characters and the empty string. -/
theorem test_assembler :
    assembleLine ⟨.enc, "400638133393".toList⟩ = 0x1C4006381333930 ∧
      assembleLine ⟨.enc, "40063813339a".toList⟩ = 0x1C40063813339A0 ∧
      assembleLine ⟨.enc, "40063813339311".toList⟩ = 0x1E4006381333931 ∧
      assembleLine ⟨.enc, []⟩ = 0x100000000000000 ∧
      assembleLine ⟨.reserved 0, "4006381333931".toList⟩ = 0x0D4006381333931 := by decide

/-- R62. -/
theorem test_disassembler : disassemble 0x1C40063813339A0 = ⟨.enc, "40063813339a".toList⟩ := by decide

theorem test_print : (AsmLine.mk .chk ['1', '2']).print = "CHK \"12\"" := by decide +kernel

/-! ### Ill-formed terms, one for each check -/

theorem test_illformed_count :
    (Instr.enc 11 (Vector.replicate 13 0)).wellFormed = false ∧ (Instr.enc 14 (Vector.replicate 13 0)).wellFormed = false ∧
      (Instr.map 12 (Vector.replicate 13 0)).wellFormed = false ∧ (Instr.chk 13 (Vector.replicate 13 0)).wellFormed = false ∧
      (Instr.vfy 12 (Vector.replicate 13 0)).wellFormed = false := by decide

theorem test_illformed_digit :
    (Instr.enc 12 #v[0, 0, 0, 0, 0, 0, 0, 0, 0, 0, 0, 10, 0]).wellFormed = false ∧
      (Instr.map 13 #v[15, 0, 0, 0, 0, 0, 0, 0, 0, 0, 0, 0, 0]).wellFormed = false ∧
      (Instr.chk 12 #v[0, 0, 0, 0, 0, 0, 0, 0, 0, 0, 0, 10, 0]).wellFormed = false ∧
      (Instr.vfy 13 #v[0, 0, 0, 0, 0, 0, 0, 0, 0, 0, 0, 0, 10]).wellFormed = false := by decide

/-- The nibble above the count is not looked at (R56). -/
theorem test_wellformed :
    (Instr.enc 12 #v[9, 9, 9, 9, 9, 9, 9, 9, 9, 9, 9, 9, 15]).wellFormed = true ∧
      (Instr.enc 13 (Vector.replicate 13 9)).wellFormed = true := by decide

/-- R61: `OP<k>` takes the codes 0 and 5 to 15. -/
theorem test_illformed_asm :
    (AsmOp.reserved 4).wellFormed = false ∧ (AsmOp.reserved 16).wellFormed = false ∧
      (AsmOp.reserved 0).wellFormed = true ∧ (AsmOp.reserved 5).wellFormed = true ∧
      (AsmOp.reserved 15).wellFormed = true := by decide

/-! ### One step of each instruction -/

/-- S1: the source's example. -/
theorem test_enc_twelve :
    firstResponse 0x1C4006381333930 = some (1, ⟨0, 0x4006381333931, 0x51A9D7BD12CD50A142E90B35⟩) := by decide +kernel

/-- V-ENC-6 and S3. -/
theorem test_enc_thirteen :
    firstResponse 0x1D5901234123457 = some (1, ⟨0, 0x5901234123457, 0x5169D9937A7559B642B93A25⟩) ∧
      firstResponse 0x1D4006381333930 = some (1, ⟨2, 0, 0⟩) := by decide +kernel

/-- V-MAP-5 (wrong check digit, mapped all the same). -/
theorem test_map :
    firstResponse 0x2D6934567890123 = some (1, ⟨0, 0x6934567890123, 0x51684EB95EED523A72CDB215⟩) := by decide +kernel

/-- V-MAP-9. -/
theorem test_map_twelve : firstResponse 0x2C4006381333930 = some (1, ⟨1, 0, 0⟩) := by decide

/-- V-CHK-8 and V-CHK-3. -/
theorem test_chk :
    firstResponse 0x3C400638133393F = some (1, ⟨0, 0x4006381333931, 0⟩) ∧
      firstResponse 0x3C9999999999990 = some (1, ⟨0, 0x9999999999994, 0⟩) := by decide

/-- V-CHK-9. -/
theorem test_chk_thirteen : firstResponse 0x3D4006381333931 = some (1, ⟨1, 0, 0⟩) := by decide

/-- V-VFY-6 and V-VFY-2. -/
theorem test_vfy :
    firstResponse 0x4D4006831333931 = some (1, ⟨0, 0x4006831333931, 0⟩) ∧
      firstResponse 0x4D4006381333930 = some (1, ⟨2, 0, 0⟩) := by decide

/-- V-VFY-8: `InvalidInput` before `ChecksumMismatch`. -/
theorem test_vfy_nondigit : firstResponse 0x4D400638133393A = some (1, ⟨1, 0, 0⟩) := by decide

/-- V-ILL-5 and V-ILL-4: `IllegalOp` before `InvalidInput`; the all-zero word. -/
theorem test_reserved :
    firstResponse 0x7C40063813339A0 = some (1, ⟨3, 0, 0⟩) ∧ firstResponse 0 = some (1, ⟨3, 0, 0⟩) := by decide

/-- R73 and section 2.1 of the vectors: position 10 has weight 1, position 11 has weight 3, zero gives zero. -/
theorem test_checkdigit :
    checkdigit #v[0, 0, 0, 0, 0, 0, 0, 0, 0, 0, 1, 0] = 9 ∧ checkdigit #v[0, 0, 0, 0, 0, 0, 0, 0, 0, 0, 0, 1] = 7 ∧
      checkdigit (Vector.replicate 12 0) = 0 ∧ checkdigit #v[0, 1, 2, 3, 4, 5, 6, 7, 8, 9, 0, 5] = 0 := by decide

/-- V-ENC-4: the six left patterns of first digit 1. -/
theorem test_left_patterns :
    (pat roms #v[1, 2, 3, 4, 5, 6, 7, 8, 9, 0, 1, 2, 8] 1, pat roms #v[1, 2, 3, 4, 5, 6, 7, 8, 9, 0, 1, 2, 8] 3,
      pat roms #v[1, 2, 3, 4, 5, 6, 7, 8, 9, 0, 1, 2, 8] 6) = (0b0010011, 0b0011101, 0b0010001) := by decide

/-- S1, S3, S5 of the source, by its own `encode`. -/
theorem test_source :
    sourceEncode roms "400638133393".toList =
        .ok ⟨assemble roms #v[4, 0, 0, 6, 3, 8, 1, 3, 3, 3, 9, 3, 1], "4006381333931".toList⟩ ∧
      sourceEncode roms "4006381333930".toList = .error .checksumMismatch ∧
      sourceEncode roms "40063813339a".toList = .error .invalidInput := by decide +kernel

/-! ### Witnesses: the hypotheses of every statement can be met -/

/-- Digits of the source's example, with and without the check digit, as digits and as nibbles. -/
def sample12 : Digits12 := #v[4, 0, 0, 6, 3, 8, 1, 3, 3, 3, 9, 3]
def sample13 : Code := #v[4, 0, 0, 6, 3, 8, 1, 3, 3, 3, 9, 3, 1]
def wrong13 : Code := #v[4, 0, 0, 6, 3, 8, 1, 3, 3, 3, 9, 3, 0]
def sampleLatches : Latches := #v[4, 0, 0, 6, 3, 8, 1, 3, 3, 3, 9, 3, 1]
def wrongLatches : Latches := #v[4, 0, 0, 6, 3, 8, 1, 3, 3, 3, 9, 3, 0]
/-- The same twelve digits with a non-digit behind them. -/
def ignoredLatches : Latches := #v[4, 0, 0, 6, 3, 8, 1, 3, 3, 3, 9, 3, 15]

/-- A state in which the word is presented. -/
def presenting (w : RequestWord) : State := { State.reset with inputs := [.request w] }

/-- A state after an error, with a reset to come. -/
def failed : State := { rspValid := 1, status := 2, label := 0, mod := 0, inputs := [.reset] }

theorem witness_ResetValuesHoldUntilFirstTransaction :
    (∀ req, State.reset.inputs.head? ≠ some (.request req)) ∧
      (∀ req, ({ State.reset with inputs := [.reset] } : State).inputs.head? ≠ some (.request req)) ∧
      (nextOf (step State.reset)).isSome = true ∧
      (nextOf (step { State.reset with inputs := [.reset] })).isSome = true := by
  refine ⟨by simp, by simp, by decide, by decide⟩

theorem witness_RspValidIsSetByEveryTransaction :
    (presenting 0).inputs.head? = some (.request 0) ∧ (nextOf (step (presenting 0))).isSome = true ∧
      (∃ s : State, s.rspValid = 1 ∧ s.inputs.head? ≠ some .reset ∧ (nextOf (step s)).isSome = true) ∧
      failed.Sound ∧ (nextOf (step failed)).map State.rspValid = some 0 :=
  ⟨rfl, by decide, ⟨{ State.reset with rspValid := 1 }, by decide, by decide, by decide⟩,
    ⟨fun h => absurd h (by decide), fun _ => ⟨rfl, rfl⟩, by decide, fun h => absurd rfl h⟩, by decide⟩

theorem witness_IdleStepChangesNothing : State.reset.inputs = [] := rfl

/-- Also for `EncodeOfDecodedWordIsTheWord`, `FieldsStandWhereFormatQPutsThem` and `OpcodeTableRowsSelect`. -/
theorem witness_StepRunsDecodedInstruction :
    decode 0x2D4006381333931 = .instr (.map 13 sampleLatches) ∧ decode 0x5D4006381333931 = .reservedOp 5 := by decide

/-- Also for `ReservedOpStepRaisesIllegalOp`. -/
theorem witness_ReservedOpEndsInIllegalOp :
    (0#60).toNat / 2 ^ 56 = 0 ∧ 5 ≤ (0x500000000000000#60).toNat / 2 ^ 56 ∧
      5 ≤ (0xFFFFFFFFFFFFFFF#60).toNat / 2 ^ 56 ∧
      (respond roms 0x500000000000000).status = 3 := by decide

/-- Also for `ChkOfTwelveDigitsAppends`; position 12 holds a digit or a non-digit. -/
theorem witness_EncOfTwelveDigitsAppendsAndMaps :
    (∀ i : Fin 12, (sampleLatches[i.val]'(by omega)).toNat = sample12[i].val) ∧
      (∀ i : Fin 12, (ignoredLatches[i.val]'(by omega)).toNat = sample12[i].val) := by decide

/-- Also for the first clauses of `MapOfThirteenDigitsMaps` and `VfyOfThirteenDigitsValidates`. -/
theorem witness_EncOfThirteenValidDigitsMaps :
    (∀ i : Fin 13, sampleLatches[i].toNat = sample13[i].val) ∧ wsum13 sample13 % 10 = 0 := by decide

/-- Also for the second clause of `VfyOfThirteenDigitsValidates`. -/
theorem witness_EncRejectsFailingChecksum :
    (∀ i : Fin 13, wrongLatches[i].toNat = wrong13[i].val) ∧ valid13 wrong13 = false ∧ wsum13 wrong13 % 10 ≠ 0 := by
  decide

/-- The ill-formed terms above, and a next state with status 1. Also for the last clauses of
`MapOfThirteenDigitsMaps`, `ChkOfTwelveDigitsAppends` and `VfyOfThirteenDigitsValidates`. -/
theorem witness_InvalidInputExactlyWhenIllFormed :
    (Instr.vfy 13 ignoredLatches).wellFormed = false ∧ 9 < (ignoredLatches[(12 : Fin 13)]).toNat ∧ (12#4) ≠ 13#4 ∧
      (nextOf (exec (.vfy 13 ignoredLatches) State.reset)).map State.status = some 1 := by decide

/-- Both sides of the equivalence, for both instructions, and a next state where neither holds. -/
theorem witness_ChecksumMismatchExactly :
    (nextOf (exec (.enc 13 wrongLatches) State.reset)).map State.status = some 2 ∧
      (nextOf (exec (.vfy 13 wrongLatches) State.reset)).map State.status = some 2 ∧
      (nextOf (exec (.vfy 13 sampleLatches) State.reset)).map State.status = some 0 := by decide +kernel

theorem witness_ErrorLeavesOnlyItsCode :
    (nextOf (exec (.vfy 13 wrongLatches) State.reset)).map State.status = some 2 := by decide

theorem witness_InstructionsWriteOnlyTheResponse :
    (nextOf (exec (.chk 12 sampleLatches) State.reset)).isSome = true ∧
      (nextOf (exec (.vfy 13 sampleLatches) State.reset)).isSome = true := by decide

theorem witness_ResponseDependsOnTheRequestAlone :
    (nextOf (step { State.reset with inputs := [.request 7] })).isSome = true ∧
      (nextOf (step { State.reset with rspValid := 1, status := 2, inputs := [.request 7, .reset] })).isSome = true := by
  decide

theorem witness_NibblesAboveTheCountAreIgnored :
    opField 0x3C4006381333930 = opField 0x3C400638133393F ∧ lenField 0x3C4006381333930 = lenField 0x3C400638133393F ∧
      (∀ i : Fin 13, i.val < (lenField 0x3C4006381333930).toNat →
        (loadLatches 0x3C4006381333930)[i] = (loadLatches 0x3C400638133393F)[i]) := by decide

/-- Also for the second clause of `ReencodingTheLabelReproducesTheResponse` and for `OperationsCompose`. -/
theorem witness_EncOutputsOnlyValidCodes :
    (encResponse roms 12 ignoredLatches).status = 0 ∧ (encResponse roms 13 sampleLatches).status = 0 ∧
      (vfyResponse 13 sampleLatches).status = 0 ∧ (vfyResponse 13 wrongLatches).status = 2 := by decide +kernel

theorem witness_ChangedDigitIsCaught : valid13 sample13 = true ∧ (0 : Digit) ≠ sample13[(12 : Fin 13)] := by decide

/-- First digit 4 has selector L at position 1 and G at position 6: both clauses, at both ends of the left half. -/
theorem witness_PatternSelection :
    (roms.parity[sample13[0]]).getLsbD (6 - 1) = false ∧ (roms.parity[sample13[0]]).getLsbD (6 - 6) = true := by decide

/-- Pairs of codes for the clauses of `ModuleDependence`: they differ at position 0 only, at position 12 only, and
agree at positions 0 and 1 and at position 7 while differing elsewhere. -/
theorem witness_ModuleDependence :
    (∀ i : Fin 13, i ≠ 0 → sample13[i] = (sample13.set 0 9)[i]) ∧ sample13 ≠ sample13.set 0 9 ∧
      (∀ i : Fin 13, i ≠ 12 → sample13[i] = wrong13[i]) ∧ sample13 ≠ wrong13 ∧
      sample13[0] = wrong13[0] ∧ sample13[1] = wrong13[1] ∧ sample13[7] = wrong13[7] := by decide

/-- Also for `CodeValueDeterminesTheCode`: equal codes meet the hypothesis. -/
theorem witness_DefaultBarcodeDeterminesTheCode :
    barcode roms sample13 = barcode roms sample13 ∧ codeValue sample13 = codeValue sample13 := ⟨rfl, rfl⟩

theorem witness_ReencodingTheLabelReproducesTheResponse :
    opField 0x1C400638133393F = 1 ∧ lenField 0x1C400638133393F = 12 ∧
      (∀ i : Fin 13, i.val < 12 → (loadLatches 0x1C400638133393F)[i].toNat ≤ 9) ∧
      (respond roms 0x1C400638133393F).status = 0 := by decide +kernel

theorem witness_SoundRegistersArePreserved :
    failed.Sound ∧ (nextOf (step failed)).isSome = true :=
  ⟨⟨fun h => absurd h (by decide), fun _ => ⟨rfl, rfl⟩, by decide, fun h => absurd rfl h⟩, by decide⟩

/-- A word of count 12 with a zero behind it, and one of count 13, which has no ignored nibble. -/
theorem witness_AssemblyRestoresDisassembledWord :
    (lenField 0x3C4006381333930).toNat ≤ 13 ∧
      (∀ i : Fin 13, (lenField 0x3C4006381333930).toNat ≤ i.val → (loadLatches 0x3C4006381333930)[i] = 0) ∧
      (lenField 0x3D4006381333931).toNat ≤ 13 ∧
      (∀ i : Fin 13, (lenField 0x3D4006381333931).toNat ≤ i.val → (loadLatches 0x3D4006381333931)[i] = 0) := by decide

end Sys2Proof.Tests
end

section
/-! Proofs of the statements about the state (`10_state.md`): the response registers, reset and the step, and how the
registers hold digits and modules. -/

namespace Sys2Proof.Machine

/-! ### One step, by what the host presents -/

theorem step_of_request {s : State} {req : RequestWord} {rest : List HostInput} (h : s.inputs = .request req :: rest) :
    step s = .next ({ s with inputs := rest }.complete (respond roms req)) := by
  obtain ⟨h', -⟩ | ⟨rest', h', -⟩ | ⟨req', rest', h', hstep⟩ := step_cases s
  · simp [h] at h'
  · simp [h] at h'
  · obtain ⟨rfl, rfl⟩ : req = req' ∧ rest = rest' := by simpa [h] using h'
    exact hstep

theorem step_of_reset {s : State} {rest : List HostInput} (h : s.inputs = .reset :: rest) :
    step s = .next { State.reset with inputs := rest } := by
  obtain ⟨h', -⟩ | ⟨rest', h', hstep⟩ | ⟨req', rest', h', -⟩ := step_cases s
  · simp [h] at h'
  · obtain rfl : rest = rest' := by simpa [h] using h'
    exact hstep
  · simp [h] at h'

/-- The inversion of a step: the next state is the old one with nothing presented, the reset values, or the completion
of the transaction presented. -/
theorem step_next_cases {s t : State} (h : step s = .next t) :
    (s.inputs = [] ∧ t = s) ∨
    (∃ rest, s.inputs = .reset :: rest ∧ t = { State.reset with inputs := rest }) ∨
    (∃ req rest, s.inputs = .request req :: rest ∧ t = { s with inputs := rest }.complete (respond roms req)) := by
  obtain ⟨hin, hstep⟩ | ⟨rest, hin, hstep⟩ | ⟨req, rest, hin, hstep⟩ := step_cases s <;>
    rw [hstep, Host.Outcome.next.injEq] at h
  · exact .inl ⟨hin, h.symm⟩
  · exact .inr (.inl ⟨rest, hin, h.symm⟩)
  · exact .inr (.inr ⟨req, rest, hin, h.symm⟩)

/-! ### The digits of `LABEL` and the modules of `MOD` -/

/-- Every nibble of a packed field is the one packed at its position (R17). -/
theorem labelNibble_packNibbles (d : Latches) (i : Fin 13) : labelNibble (packNibbles d) i = d[i] :=
  extract_packNibbles d i i.isLt

/-- A label shows the digits of its code (R17). -/
theorem labelNibble_labelWord (y : Code) (i : Fin 13) : (labelNibble (labelWord y) i).toNat = y[i].val := by
  rw [labelWord, labelNibble_packNibbles, Fin.getElem_fin, getElem_codeLatches, digitNibble_toNat, Fin.getElem_fin]

@[simp] theorem assemble_length (R : Roms) (y : Code) : (assemble R y).length = 95 := by
  simp [assemble, guardEnd, guardCenter]

/-- Module `m` of the value of a sequence of 95 modules is its element `m` (R18). -/
theorem moduleAt_modWord {ms : List Bool} (hlen : ms.length = 95) (m : Fin 95) :
    ms[m.val]? = some (moduleAt (modWord ms) m) := by
  have hm : m.val < ms.length := by omega
  have hbit : 94 - m.val < ms.length := by omega
  have hidx : ms.length - 1 - (94 - m.val) = m.val := by omega
  rw [moduleAt, modWord, foldl_shiftConcat_getLsbD _ _ _ (by omega), dif_pos hbit, List.getElem?_eq_getElem hm]
  simp only [hidx]

/-! ### Soundness of the responses -/

/-- What makes the registers sound once a response is written to them: `State.Sound` without its clause on
`RSP_VALID`, see `State.Sound.complete`. -/
structure Response.Sound (r : Response) : Prop where
  noPartial : r.status ≠ 0 → r.label = 0 ∧ r.mod = 0
  labelDigits : ∀ i : Fin 13, (labelNibble r.label i).toNat ≤ 9
  barcodeOfLabel : r.mod ≠ 0 → ∃ y : Code, r.label = labelWord y ∧ r.mod = barcode roms y

/-- Completing a transaction with a sound response makes the registers sound, whatever they held. -/
theorem Response.Sound.complete {r : Response} (hr : r.Sound) (s : State) : (s.complete r).Sound where
  quiet h := absurd h (by simp)
  noPartial := hr.noPartial
  labelDigits := hr.labelDigits
  barcodeOfLabel := hr.barcodeOfLabel

theorem labelNibble_zero_toNat_le (i : Fin 13) : (labelNibble 0 i).toNat ≤ 9 := by
  simp [labelNibble]

/-- The registers are sound at their reset values. -/
theorem reset_sound (rest : List HostInput) : ({ State.reset with inputs := rest } : State).Sound where
  quiet _ := ⟨rfl, rfl, rfl⟩
  noPartial _ := ⟨rfl, rfl⟩
  labelDigits := labelNibble_zero_toNat_le
  barcodeOfLabel h := absurd rfl h

theorem raise_sound (e : ErrorKind) : (raise e).Sound where
  noPartial _ := ⟨rfl, rfl⟩
  labelDigits := labelNibble_zero_toNat_le
  barcodeOfLabel h := absurd rfl h

/-- A success that shows a code is sound if `MOD` is zero or the barcode of the code. -/
theorem succeed_sound {y : Code} {m : ModWord} (hm : m ≠ 0 → m = barcode roms y) : (succeed (labelWord y) m).Sound where
  noPartial h := absurd rfl h
  labelDigits i := by
    have := y[i].isLt
    rw [succeed_label, labelNibble_labelWord]
    omega
  barcodeOfLabel h := ⟨y, rfl, hm h⟩

theorem withDigits12_sound (n : Nibble) (d : Latches) {use : Digits12 → Response} (huse : ∀ x, (use x).Sound) :
    (withDigits12 n d use).Sound := by
  obtain ⟨x, -, -, h⟩ | ⟨-, h⟩ := withDigits12_cases n d use
  · exact h ▸ huse x
  · exact h ▸ raise_sound _

theorem withDigits13_sound (n : Nibble) (d : Latches) {use : Code → Response} (huse : ∀ y, (use y).Sound) :
    (withDigits13 n d use).Sound := by
  obtain ⟨y, -, -, h⟩ | ⟨-, h⟩ := withDigits13_cases n d use
  · exact h ▸ huse y
  · exact h ▸ raise_sound _

theorem chkDigits_sound (x : Digits12) : (chkDigits x).Sound := succeed_sound fun h => absurd rfl h

theorem vfyDigits_sound (y : Code) : (vfyDigits y).Sound := by
  unfold vfyDigits
  split
  · exact succeed_sound fun h => absurd rfl h
  · exact raise_sound _

theorem mapDigits_sound (y : Code) : (mapDigits roms y).Sound := succeed_sound fun _ => rfl

theorem encCode_sound (y : Code) : (encCode roms y).Sound := by
  unfold encCode
  split
  · exact succeed_sound fun _ => rfl
  · exact raise_sound _

theorem encResponse_sound (n : Nibble) (d : Latches) : (encResponse roms n d).Sound := by
  unfold encResponse
  split
  · exact withDigits12_sound n d fun x => encCode_sound (appendCheck x)
  · exact withDigits13_sound n d encCode_sound

theorem instrResponse_sound (i : Instr) : (instrResponse roms i).Sound := by
  cases i with
  | enc n d => exact encResponse_sound n d
  | map n d => exact withDigits13_sound n d mapDigits_sound
  | chk n d => exact withDigits12_sound n d chkDigits_sound
  | vfy n d => exact withDigits13_sound n d vfyDigits_sound

/-- The response of every one of the 2^60 words is sound. -/
theorem respond_sound (req : RequestWord) : (respond roms req).Sound := by
  unfold respond
  split
  · exact instrResponse_sound _
  · exact raise_sound _

/-- Settles O46, by the three kinds of step: the registers stay, take their reset values, or take a sound response. -/
theorem soundRegistersArePreserved : Obligations.SoundRegistersArePreserved := by
  intro s t hs hstep
  obtain ⟨-, rfl⟩ | ⟨rest, -, rfl⟩ | ⟨req, rest, -, rfl⟩ := step_next_cases hstep
  · exact hs
  · exact reset_sound rest
  · exact (respond_sound req).complete _

/-! ### Reset, the transaction and its frame -/

/-- Settles O1: a step that takes no request is idle or a reset. -/
theorem resetValuesHoldUntilFirstTransaction : Obligations.ResetValuesHoldUntilFirstTransaction := by
  refine ⟨⟨rfl, rfl, rfl, rfl⟩, fun s rest => step_of_reset rfl, ?_⟩
  intro s t hvalid hstatus hlabel hmod hreq hstep
  obtain ⟨-, rfl⟩ | ⟨rest, -, rfl⟩ | ⟨req, rest, hin, -⟩ := step_next_cases hstep
  · exact ⟨hvalid, hstatus, hlabel, hmod⟩
  · exact ⟨rfl, rfl, rfl, rfl⟩
  · exact absurd (by rw [hin]; rfl) (hreq req)

/-- Settles O2: the first clauses by the three kinds of step, the last by soundness of the next state (O46). -/
theorem rspValidIsSetByEveryTransaction : Obligations.RspValidIsSetByEveryTransaction := by
  refine ⟨rfl, ?_, ?_, ?_⟩
  · intro s t req hreq hstep
    obtain ⟨hin, -⟩ | ⟨rest, hin, -⟩ | ⟨req', rest, -, rfl⟩ := step_next_cases hstep
    · simp [hin] at hreq
    · simp [hin] at hreq
    · exact State.complete_rspValid _ _
  · intro s t hvalid hreset hstep
    obtain ⟨-, rfl⟩ | ⟨rest, hin, -⟩ | ⟨req', rest, -, rfl⟩ := step_next_cases hstep
    · exact hvalid
    · exact absurd (by rw [hin]; rfl) hreset
    · exact State.complete_rspValid _ _
  · intro s t hs hstep
    exact (soundRegistersArePreserved s t hs hstep).quiet

/-- Settles O6: the completion of the transaction at the head of the inputs, field by field. -/
theorem transactionWritesTheFourRegisters : Obligations.TransactionWritesTheFourRegisters :=
  fun _ _ _ => step_of_request rfl

theorem chkResponse_mod (n : Nibble) (d : Latches) : (chkResponse n d).mod = 0 := by
  unfold chkResponse
  obtain ⟨x, -, -, h⟩ | ⟨-, h⟩ := withDigits12_cases n d chkDigits
  · rw [h, chkDigits, succeed_mod]
  · rw [h, raise_mod]

theorem vfyDigits_mod (y : Code) : (vfyDigits y).mod = 0 := by
  unfold vfyDigits
  split <;> rfl

theorem vfyResponse_mod (n : Nibble) (d : Latches) : (vfyResponse n d).mod = 0 := by
  unfold vfyResponse
  obtain ⟨y, -, -, h⟩ | ⟨-, h⟩ := withDigits13_cases n d vfyDigits
  · rw [h, vfyDigits_mod]
  · rw [h, raise_mod]

/-- Settles O24: every instruction completes its transaction, and the responses of CHK and VFY have no modules. -/
theorem instructionsWriteOnlyTheResponse : Obligations.InstructionsWriteOnlyTheResponse := by
  intro i s t h
  obtain rfl : s.complete (instrResponse roms i) = t := by simpa [exec_eq] using h
  refine ⟨rfl, rfl, ?_⟩
  rintro n d (rfl | rfl)
  · exact chkResponse_mod n d
  · exact vfyResponse_mod n d

/-! ### How the registers hold digits and modules -/

/-- Settles O38, for any sequence of 95 modules. -/
theorem modHoldsTheModuleSequence : Obligations.ModHoldsTheModuleSequence :=
  fun R y m => moduleAt_modWord (assemble_length R y) m

/-- Settles O42. -/
theorem labelShowsTheDigits : Obligations.LabelShowsTheDigits := labelNibble_labelWord

/-- The digits of a code as numbers, the least significant first. -/
def codeDigits (y : Code) : List Nat := ((List.finRange 13).map fun i => y[i].val).reverse

@[simp] theorem codeDigits_length (y : Code) : (codeDigits y).length = 13 := by
  simp [codeDigits]

theorem lt_ten_of_mem_codeDigits {y : Code} {v : Nat} (h : v ∈ codeDigits y) : v < 10 := by
  obtain ⟨i, rfl⟩ : ∃ i : Fin 13, y[i].val = v := by simpa [codeDigits] using h
  exact y[i].isLt

theorem codeDigits_injective {y z : Code} (h : codeDigits y = codeDigits z) : y = z := by
  have hdigit : ∀ i : Fin 13, y[i].val = z[i].val := by simpa [codeDigits] using h
  ext i hi
  exact hdigit ⟨i, hi⟩

/-- The value of a code is its digits read in base ten (R13). -/
theorem codeValue_eq_ofDigits (y : Code) : codeValue y = Nat.ofDigits 10 (codeDigits y) := by
  rw [codeValue, codeDigits, Nat.ofDigits_eq_foldr, List.foldr_reverse, List.foldl_map]
  simp only [Nat.cast_id, Nat.mul_comm, Nat.add_comm]

/-- Settles O43, by the bound and the injectivity of base-ten digits. -/
theorem codeValueDeterminesTheCode : Obligations.CodeValueDeterminesTheCode := by
  refine ⟨by decide, ?_, ?_⟩
  · intro y
    have hlt := Nat.ofDigits_lt_base_pow_length (by omega) fun _ => lt_ten_of_mem_codeDigits (y := y)
    rwa [← codeValue_eq_ofDigits, codeDigits_length] at hlt
  · intro y z h
    rw [codeValue_eq_ofDigits, codeValue_eq_ofDigits] at h
    exact codeDigits_injective <| Nat.ofDigits_inj_of_len_eq (by omega) (by simp)
      (fun _ => lt_ten_of_mem_codeDigits) (fun _ => lt_ten_of_mem_codeDigits) h

/-! ### The values of `STATUS`, and the state after reset -/

theorem statusMeaning_code (e : ErrorKind) : statusMeaning e.code = some e := by
  cases e <;> rfl

/-- Settles O28. Producing 0 is CHK of 12 digits, 1 MAP of 12 digits, 2 VFY of a wrong check digit, 3 the all-zero
word. -/
theorem everyStatusIsProduced : Obligations.EveryStatusIsProduced := by
  refine ⟨⟨rfl, statusMeaning_code⟩, fun v => ?_⟩
  have hv : v = 0 ∨ v = 1 ∨ v = 2 ∨ v = 3 := by decide +revert
  obtain rfl | rfl | rfl | rfl := hv
  · exact ⟨0x3C4006381333930, by decide⟩
  · exact ⟨0x2C4006381333930, by decide⟩
  · exact ⟨0x4D4006381333930, by decide⟩
  · exact ⟨0, by decide⟩

/-- Settles O47. -/
theorem resetRegistersAreSound : Obligations.ResetRegistersAreSound := reset_sound []

end Sys2Proof.Machine
end

section
/-! Proofs of the statements about the two read-only memories (`20_memory.md`): the codes of selectors and codesets, and
the default contents. Of codeset L the entries are inspected; codesets R and G follow from it by complement and
reversal. -/

namespace Sys2Proof.Machine

/-! ### Selectors and codesets -/

/-- The code of the codeset selected is the selector's code, zero-extended (R31). -/
theorem Selector.codeset_code (k : Selector) : k.codeset.code = k.code.zeroExtend 2 := by
  cases k <;> rfl

theorem Codeset.code_ne_three (c : Codeset) : c.code ≠ 3 := by
  cases c <;> decide

theorem Codeset.index_val (c : Codeset) : c.index.val = c.code.toNat := by
  cases c <;> rfl

/-- Settles O34. -/
theorem codesetCodes : Obligations.CodesetCodes :=
  ⟨⟨rfl, rfl⟩, ⟨rfl, rfl, rfl⟩, Selector.codeset_code, fun c => ⟨c.code_ne_three, c.index_val⟩⟩

/-! ### The modules of an entry -/

/-- The modules determine the entry. -/
theorem entryModules_injective {p q : PatternEntry} (h : entryModules p = entryModules q) : p = q := by
  refine BitVec.eq_of_getLsbD_eq fun i hi => ?_
  have hp := entryModules_getElem? p (6 - i) (by omega)
  have hq := entryModules_getElem? q (6 - i) (by omega)
  have hidx : 6 - (6 - i) = i := by omega
  rw [h, hq, hidx] at hp
  exact (Option.some.inj hp).symm

theorem entryModules_not (p : PatternEntry) : entryModules (~~~p) = (entryModules p).map (!·) := by
  have hbit : ∀ j : Fin 7, 6 - j.val < 7 := fun j => by omega
  simp [entryModules, hbit]

/-- The 7 modules are the bars of the entry and the bars of its complement. -/
theorem count_entryModules_not (p : PatternEntry) :
    (entryModules p).count true + (entryModules (~~~p)).count true = 7 := by
  have hflip : ((entryModules p).map (!·)).count true = (entryModules p).count false :=
    List.count_map_of_injective _ _ Bool.not_injective false
  rw [entryModules_not, hflip, Nat.add_comm, List.count_false_add_count_true, entryModules_length]

/-! ### The default parity table (R33) -/

theorem readParity_roms_injective {f g : Digit} (h : readParity roms f = readParity roms g) : f = g := by
  decide +revert

theorem rowSelector_readParity_roms_zero (f : Digit) : rowSelector (readParity roms f) 0 = .L := by
  decide +revert

theorem rowSelector_readParity_roms_digit_zero (k : Fin 6) : rowSelector (readParity roms 0) k = .L := by
  decide +revert

theorem three_selectors_G_of_ne_zero (f : Digit) (hf : f ≠ 0) :
    ((List.finRange 6).filter fun k => rowSelector (readParity roms f) k == .G).length = 3 := by
  decide +revert

/-! ### The default codesets (R36): L by inspection of its ten entries -/

theorem readPattern_roms_L_injective {f g : Digit} (h : readPattern roms .L f = readPattern roms .L g) : f = g := by
  decide +revert

theorem count_readPattern_roms_L (g : Digit) : (entryModules (readPattern roms .L g)).count true % 2 = 1 := by
  decide +revert

theorem head?_readPattern_roms_L (g : Digit) : (entryModules (readPattern roms .L g)).head? = some false := by
  decide +revert

theorem getLast?_readPattern_roms_L (g : Digit) : (entryModules (readPattern roms .L g)).getLast? = some true := by
  decide +revert

/-! ### Codeset R is the complement of codeset L -/

theorem readPattern_roms_R (g : Digit) : readPattern roms .R g = ~~~(readPattern roms .L g) := by
  decide +revert

theorem readPattern_roms_R_injective {f g : Digit} (h : readPattern roms .R f = readPattern roms .R g) : f = g := by
  rw [readPattern_roms_R, readPattern_roms_R, BitVec.not_inj] at h
  exact readPattern_roms_L_injective h

theorem count_readPattern_roms_R (g : Digit) : (entryModules (readPattern roms .R g)).count true % 2 = 0 := by
  have hL := count_readPattern_roms_L g
  have hsum := count_entryModules_not (readPattern roms .L g)
  rw [readPattern_roms_R]
  omega

theorem head?_readPattern_roms_R (g : Digit) : (entryModules (readPattern roms .R g)).head? = some true := by
  rw [readPattern_roms_R, entryModules_not, List.head?_map, head?_readPattern_roms_L]
  rfl

theorem getLast?_readPattern_roms_R (g : Digit) : (entryModules (readPattern roms .R g)).getLast? = some false := by
  rw [readPattern_roms_R, entryModules_not, List.getLast?_map, getLast?_readPattern_roms_L]
  rfl

/-! ### Codeset G is codeset R reversed -/

theorem entryModules_readPattern_roms_G (g : Digit) :
    entryModules (readPattern roms .G g) = (entryModules (readPattern roms .R g)).reverse := by
  decide +revert

theorem readPattern_roms_G_injective {f g : Digit} (h : readPattern roms .G f = readPattern roms .G g) : f = g := by
  have hrev := congrArg entryModules h
  rw [entryModules_readPattern_roms_G, entryModules_readPattern_roms_G, List.reverse_inj] at hrev
  exact readPattern_roms_R_injective (entryModules_injective hrev)

theorem count_readPattern_roms_G (g : Digit) : (entryModules (readPattern roms .G g)).count true % 2 = 0 := by
  rw [entryModules_readPattern_roms_G, List.count_reverse, count_readPattern_roms_R]

theorem head?_readPattern_roms_G (g : Digit) : (entryModules (readPattern roms .G g)).head? = some false := by
  rw [entryModules_readPattern_roms_G, List.head?_reverse, getLast?_readPattern_roms_R]

theorem getLast?_readPattern_roms_G (g : Digit) : (entryModules (readPattern roms .G g)).getLast? = some true := by
  rw [entryModules_readPattern_roms_G, List.getLast?_reverse, head?_readPattern_roms_R]

/-! ### No entry stands in two codesets: L is odd, G and R are even, and G and R begin differently -/

theorem readPattern_roms_L_ne_G (f g : Digit) : readPattern roms .L f ≠ readPattern roms .G g := by
  intro h
  have hodd := count_readPattern_roms_L f
  rw [h, count_readPattern_roms_G] at hodd
  contradiction

theorem readPattern_roms_L_ne_R (f g : Digit) : readPattern roms .L f ≠ readPattern roms .R g := by
  intro h
  have hodd := count_readPattern_roms_L f
  rw [h, count_readPattern_roms_R] at hodd
  contradiction

theorem readPattern_roms_G_ne_R (f g : Digit) : readPattern roms .G f ≠ readPattern roms .R g := by
  intro h
  have hhead := head?_readPattern_roms_G f
  rw [h, head?_readPattern_roms_R] at hhead
  contradiction

/-- Settles O41: the parity rows and codeset L by inspection, R as the complement of L, G as the reversal of R. -/
theorem defaultTableProperties : Obligations.DefaultTableProperties :=
  ⟨fun _ _ => readParity_roms_injective,
   rowSelector_readParity_roms_zero,
   rowSelector_readParity_roms_digit_zero,
   three_selectors_G_of_ne_zero,
   fun g => ⟨count_readPattern_roms_L g, count_readPattern_roms_G g, count_readPattern_roms_R g⟩,
   readPattern_roms_R,
   entryModules_readPattern_roms_G,
   fun g => ⟨head?_readPattern_roms_L g, getLast?_readPattern_roms_L g, head?_readPattern_roms_G g,
    getLast?_readPattern_roms_G g, head?_readPattern_roms_R g, getLast?_readPattern_roms_R g⟩,
   fun f g => ⟨readPattern_roms_L_ne_G f g, readPattern_roms_L_ne_R f g, readPattern_roms_G_ne_R f g⟩,
   fun _ _ hne => ⟨fun h => hne (readPattern_roms_L_injective h), fun h => hne (readPattern_roms_G_injective h),
    fun h => hne (readPattern_roms_R_injective h)⟩⟩

end Sys2Proof.Machine
end

section
/-! Proofs of the statements about the encoding (`30_encoding.md`): the fields of a request word, decoding and the
encoder, the opcode table, and the reserved operation codes. -/

namespace Sys2Proof

/-! ### The fields of a request word (R50, R51) -/

@[simp] theorem opField_packRequest (op n : Nibble) (d : Latches) : opField (packRequest op n d) = op := by
  ext b hb
  have hlow : ¬ 56 + b < 52 ∧ ¬ 56 + b < 56 := by omega
  rw [opField, BitVec.getElem_extractLsb', packRequest_getLsbD, if_neg hlow.1, if_neg hlow.2, Nat.add_sub_cancel_left,
    BitVec.getLsbD_eq_getElem hb]

@[simp] theorem lenField_packRequest (op n : Nibble) (d : Latches) : lenField (packRequest op n d) = n := by
  ext b hb
  have hlow : ¬ 52 + b < 52 := by omega
  have hhigh : 52 + b < 56 := by omega
  rw [lenField, BitVec.getElem_extractLsb', packRequest_getLsbD, if_neg hlow, if_pos hhigh, Nat.add_sub_cancel_left,
    BitVec.getLsbD_eq_getElem hb]

@[simp] theorem loadLatches_packRequest (op n : Nibble) (d : Latches) : loadLatches (packRequest op n d) = d := by
  ext p hp b hb
  have hdig : 48 - 4 * p + b < 52 := by omega
  rw [getElem_loadLatches, BitVec.getElem_extractLsb', packRequest_getLsbD, if_pos hdig, packNibbles_getLsbD d p b hp hb,
    BitVec.getLsbD_eq_getElem hb]

/-- The field `DIG` is its 13 nibbles. -/
theorem packNibbles_loadLatches_getLsbD (req : RequestWord) (k : Nat) (hk : k < 52) :
    (packNibbles (loadLatches req)).getLsbD k = req.getLsbD k := by
  have hpos : k = 48 - 4 * (12 - k / 4) + k % 4 := by omega
  have hbit : k % 4 < 4 := Nat.mod_lt _ (by omega)
  conv_lhs => rw [hpos]
  rw [packNibbles_getLsbD _ _ _ (by omega) hbit, getElem_loadLatches, BitVec.getLsbD_extractLsb', decide_eq_true hbit,
    Bool.true_and, ← hpos]

/-- Every bit of a request word belongs to one of its three fields (R60). -/
theorem packRequest_fields (req : RequestWord) : packRequest (opField req) (lenField req) (loadLatches req) = req := by
  refine BitVec.eq_of_getLsbD_eq fun k hk => ?_
  rw [packRequest_getLsbD]
  split
  next hdig => exact packNibbles_loadLatches_getLsbD req k hdig
  next hdig =>
    split
    next hlen =>
      have hidx : 52 + (k - 52) = k := by omega
      have hbit : k - 52 < 4 := by omega
      simp [lenField, hidx, hbit]
    next hlen =>
      have hidx : 56 + (k - 56) = k := by omega
      have hbit : k - 56 < 4 := by omega
      simp [opField, hidx, hbit]

theorem opField_toNat (req : RequestWord) : (opField req).toNat = req.toNat / 2 ^ 56 := by
  have := req.isLt
  rw [opField, BitVec.extractLsb'_toNat, Nat.shiftRight_eq_div_pow]
  omega

theorem lenField_toNat (req : RequestWord) : (lenField req).toNat = req.toNat / 2 ^ 52 % 16 := by
  rw [lenField, BitVec.extractLsb'_toNat, Nat.shiftRight_eq_div_pow]

theorem loadLatches_toNat (req : RequestWord) (p : Fin 13) :
    (loadLatches req)[p].toNat = req.toNat / 2 ^ (48 - 4 * p.val) % 16 := by
  rw [Fin.getElem_fin, getElem_loadLatches, BitVec.extractLsb'_toNat, Nat.shiftRight_eq_div_pow]

/-! ### Decoding and the encoder -/

/-- A word decodes to an instruction exactly when its three fields are the instruction's (R53). -/
theorem decode_eq_instr_iff {req : RequestWord} {i : Instr} :
    decode req = .instr i ↔ opField req = opcodeOf i ∧ lenField req = i.count ∧ loadLatches req = i.digits := by
  obtain ⟨hop, hdec⟩ | ⟨hop, hdec⟩ | ⟨hop, hdec⟩ | ⟨hop, hdec⟩ | ⟨⟨h1, h2, h3, h4⟩, hdec⟩ := decode_cases req
  case inr.inr.inr.inr => cases i <;> simp [opcodeOf, *]
  all_goals cases i <;> simp [hop, hdec, opcodeOf, Instr.count, Instr.digits]

/-- Settles O7: packing the three fields and reading them back. -/
theorem decodeEncodeRoundTrip : Obligations.DecodeEncodeRoundTrip := by
  intro i
  rw [decode_eq_instr_iff, encode]
  exact ⟨opField_packRequest .., lenField_packRequest .., loadLatches_packRequest ..⟩

/-- Settles O8: reading the three fields and packing them again. -/
theorem encodeOfDecodedWordIsTheWord : Obligations.EncodeOfDecodedWordIsTheWord := by
  intro req i h
  obtain ⟨hop, hlen, hdig⟩ := decode_eq_instr_iff.mp h
  rw [encode, ← hop, ← hlen, ← hdig, packRequest_fields]

/-- Settles O9: the value of each field, the fields of the instruction being those of the word. -/
theorem fieldsStandWhereFormatQPutsThem : Obligations.FieldsStandWhereFormatQPutsThem := by
  refine ⟨fun req i h => ?_, by decide⟩
  obtain ⟨hop, hlen, hdig⟩ := decode_eq_instr_iff.mp h
  rw [← hop, ← hlen, ← hdig]
  exact ⟨opField_toNat req, lenField_toNat req, loadLatches_toNat req⟩

/-- Settles O13. -/
theorem writtenWordsDecode : Obligations.WrittenWordsDecode := by
  refine ⟨?_, ?_, ?_, ?_, ?_⟩ <;> decide

/-! ### The opcode table (R53) and the reserved codes (R58) -/

/-- The operation codes R53 assigns. -/
def assignedOps : List Nibble := [0x1#4, 0x2#4, 0x3#4, 0x4#4]

/-- A word decodes to a reserved code exactly when its `OP` is not assigned (R58). -/
theorem decode_eq_reservedOp_iff {req : RequestWord} {op : Nibble} :
    decode req = .reservedOp op ↔ op = opField req ∧ op ∉ assignedOps := by
  obtain ⟨hop, hdec⟩ | ⟨hop, hdec⟩ | ⟨hop, hdec⟩ | ⟨hop, hdec⟩ | ⟨⟨h1, h2, h3, h4⟩, hdec⟩ := decode_cases req
  case inr.inr.inr.inr =>
    rw [hdec, Decoded.reservedOp.injEq, eq_comm, iff_self_and]
    rintro rfl
    simp [assignedOps, *]
  all_goals
    rw [hdec]
    simp +contextual [hop, assignedOps]

theorem opcodeOf_mem_assignedOps (i : Instr) : opcodeOf i ∈ assignedOps := by
  cases i <;> simp [opcodeOf, assignedOps]

theorem not_mem_assignedOps_iff (op : Nibble) : op ∉ assignedOps ↔ op.toNat = 0 ∨ 5 ≤ op.toNat := by
  decide +revert

theorem opField_append_zero (op : Nibble) : opField (op ++ 0#56) = op := by
  decide +revert

/-- A row of the table selects the words whose `OP` is that of its match. -/
theorem selects_of_mem_opTable {r : OpRow} (hr : r ∈ opTable) (req : RequestWord) :
    r.selects req = (opField req == opField r.opMatch) := by
  have hrow : ∀ r ∈ opTable, r.opMask = 0xF00000000000000#60 ∧ r.opMatch = opField r.opMatch ++ 0#56 := by decide
  obtain ⟨hmask, hmatch⟩ := hrow r hr
  have hmasked : req &&& 0xF00000000000000#60 = opField req ++ 0#56 := by
    rw [← Laws.TableMatch.packRequest_and_mask _ (lenField req) (loadLatches req), packRequest_fields]
  rw [OpRow.selects, hmask, hmasked, Bool.eq_iff_iff, beq_iff_eq, beq_iff_eq]
  constructor
  · intro h
    rw [← h, opField_append_zero]
  · intro h
    rw [h, ← hmatch]

/-- The rows and the instructions pair mnemonics with operation codes alike. -/
theorem opcodeOf_beq_of_mem_opTable {r : OpRow} (hr : r ∈ opTable) (i : Instr) :
    (opcodeOf i == opField r.opMatch) = (r.mnemonic == mnemonicOf i) := by
  cases i <;> simp only [opcodeOf, mnemonicOf] <;> revert r <;> decide

theorem opField_opMatch_mem_assignedOps {r : OpRow} (hr : r ∈ opTable) : opField r.opMatch ∈ assignedOps := by
  revert r
  decide

/-- Settles O10: a row selects by `OP` alone, and no row's `OP` is a reserved code. -/
theorem opcodeTableRowsSelect : Obligations.OpcodeTableRowsSelect := by
  refine fun req => ⟨fun i hdec r hr => ?_, fun op hdec r hr => ?_⟩
  · obtain ⟨hop, -, -⟩ := decode_eq_instr_iff.mp hdec
    rw [selects_of_mem_opTable hr, hop, opcodeOf_beq_of_mem_opTable hr]
  · obtain ⟨rfl, hop⟩ := decode_eq_reservedOp_iff.mp hdec
    rw [selects_of_mem_opTable hr, beq_eq_false_iff_ne]
    exact (ne_of_mem_of_not_mem (opField_opMatch_mem_assignedOps hr) hop).symm

end Sys2Proof

namespace Sys2Proof.Machine

/-! ### The response of a word, by its operation code -/

/-- Settles O5: the step takes the word from the inputs and runs what it decodes to. -/
theorem stepRunsDecodedInstruction : Obligations.StepRunsDecodedInstruction := by
  intro s req rest i hdec
  rw [step_of_request rfl, exec_eq, respond, hdec]

theorem respond_of_decode_instr (R : Roms) {req : RequestWord} {i : Instr} (h : decode req = .instr i) :
    respond R req = instrResponse R i := by
  rw [respond, h]

theorem respond_eq_by_op (R : Roms) (req : RequestWord) :
    respond R req =
      if opField req = 0x1#4 then encResponse R (lenField req) (loadLatches req)
      else if opField req = 0x2#4 then mapResponse R (lenField req) (loadLatches req)
      else if opField req = 0x3#4 then chkResponse (lenField req) (loadLatches req)
      else if opField req = 0x4#4 then vfyResponse (lenField req) (loadLatches req)
      else raise .illegalOp := by
  unfold respond decode
  split_ifs <;> rfl

theorem respond_of_reservedOp (R : Roms) {req : RequestWord} (h : opField req ∉ assignedOps) :
    respond R req = raise .illegalOp := by
  rw [respond, decode_eq_reservedOp_iff.mpr ⟨rfl, h⟩]

/-! ### The input checks (R57, R59) -/

theorem eq_twelve_iff (n : Nibble) : n = 12#4 ↔ n.toNat = 12 := by decide +revert

theorem eq_thirteen_iff (n : Nibble) : n = 13#4 ↔ n.toNat = 13 := by decide +revert

theorem digitsInRange_iff_of_twelve {i : Instr} (h : i.count = 12#4) :
    i.digitsInRange = true ↔ ∀ p : Fin 12, (i.digits[p.val]'(by omega)).toNat ≤ 9 := by
  rw [Instr.digitsInRange, decide_eq_true_iff, (eq_twelve_iff _).mp h]
  exact ⟨fun hd p => hd (p.castLE (by omega)) p.isLt, fun hd p hp => hd ⟨p.val, hp⟩⟩

theorem digitsInRange_iff_of_thirteen {i : Instr} (h : i.count = 13#4) :
    i.digitsInRange = true ↔ ∀ p : Fin 13, i.digits[p].toNat ≤ 9 := by
  rw [Instr.digitsInRange, decide_eq_true_iff, (eq_thirteen_iff _).mp h]
  exact ⟨fun hd p => hd p p.isLt, fun hd p _ => hd p⟩

theorem wellFormed_chk_iff (n : Nibble) (d : Latches) :
    (Instr.chk n d).wellFormed = true ↔ n = 12#4 ∧ ∀ p : Fin 12, (d[p.val]'(by omega)).toNat ≤ 9 := by
  rw [Instr.wellFormed, Bool.and_eq_true, Instr.countAccepted, beq_iff_eq, ← eq_twelve_iff]
  exact and_congr_right (digitsInRange_iff_of_twelve (i := .chk n d))

theorem wellFormed_map_iff (n : Nibble) (d : Latches) :
    (Instr.map n d).wellFormed = true ↔ n = 13#4 ∧ ∀ p : Fin 13, d[p].toNat ≤ 9 := by
  rw [Instr.wellFormed, Bool.and_eq_true, Instr.countAccepted, beq_iff_eq, ← eq_thirteen_iff]
  exact and_congr_right (digitsInRange_iff_of_thirteen (i := .map n d))

/-- ENC of 12 digits has the checks of CHK. -/
theorem wellFormed_enc_of_twelve (d : Latches) : (Instr.enc 12#4 d).wellFormed = (Instr.chk 12#4 d).wellFormed := rfl

/-- ENC of any other count has the checks of MAP. -/
theorem wellFormed_enc_of_ne_twelve {n : Nibble} (h : n ≠ 12#4) (d : Latches) :
    (Instr.enc n d).wellFormed = (Instr.map n d).wellFormed := by
  have hn : (n.toNat == 12) = false := beq_eq_false_iff_ne.mpr (mt (eq_twelve_iff n).mpr h)
  rw [Instr.wellFormed, Instr.countAccepted, hn, Bool.false_or]
  rfl

/-- What a response comes to, by the input checks: `InvalidInput` if they fail, `OK` or `ChecksumMismatch` else. -/
structure Response.FollowsChecks (ok : Bool) (r : Response) : Prop where
  accepted : ok = true → r.status = 0 ∨ r.status = 2
  rejected : ok = false → r = raise .invalidInput

theorem withDigits12_followsChecks {ok : Bool} {n : Nibble} {d : Latches} {use : Digits12 → Response}
    (hok : ok = true ↔ n = 12#4 ∧ ∀ p : Fin 12, (d[p.val]'(by omega)).toNat ≤ 9)
    (huse : ∀ x, (use x).status = 0 ∨ (use x).status = 2) : (withDigits12 n d use).FollowsChecks ok := by
  obtain ⟨x, hn, hd, h⟩ | ⟨hfail, h⟩ := withDigits12_cases n d use <;> rw [h]
  · have hchecks : ok = true := hok.mpr ⟨hn, fun p => hd p ▸ Nat.le_of_lt_succ x[p].isLt⟩
    exact ⟨fun _ => huse x, fun hfalse => absurd hchecks (by simp [hfalse])⟩
  · exact ⟨fun hchecks => absurd (hok.mp hchecks) hfail, fun _ => rfl⟩

theorem withDigits13_followsChecks {ok : Bool} {n : Nibble} {d : Latches} {use : Code → Response}
    (hok : ok = true ↔ n = 13#4 ∧ ∀ p : Fin 13, d[p].toNat ≤ 9)
    (huse : ∀ y, (use y).status = 0 ∨ (use y).status = 2) : (withDigits13 n d use).FollowsChecks ok := by
  obtain ⟨y, hn, hd, h⟩ | ⟨hfail, h⟩ := withDigits13_cases n d use <;> rw [h]
  · have hchecks : ok = true := hok.mpr ⟨hn, fun p => hd p ▸ Nat.le_of_lt_succ y[p].isLt⟩
    exact ⟨fun _ => huse y, fun hfalse => absurd hchecks (by simp [hfalse])⟩
  · exact ⟨fun hchecks => absurd (hok.mp hchecks) hfail, fun _ => rfl⟩

theorem vfyDigits_status (y : Code) : (vfyDigits y).status = 0 ∨ (vfyDigits y).status = 2 := by
  unfold vfyDigits
  split
  · exact .inl rfl
  · exact .inr rfl

theorem encCode_status (R : Roms) (y : Code) : (encCode R y).status = 0 ∨ (encCode R y).status = 2 := by
  unfold encCode
  split
  · exact .inl rfl
  · exact .inr rfl

theorem encResponse_followsChecks (R : Roms) (n : Nibble) (d : Latches) :
    (encResponse R n d).FollowsChecks (Instr.enc n d).wellFormed := by
  unfold encResponse
  split
  next hn =>
    subst hn
    rw [wellFormed_enc_of_twelve]
    exact withDigits12_followsChecks (wellFormed_chk_iff _ d) fun x => encCode_status R (appendCheck x)
  next hn =>
    rw [wellFormed_enc_of_ne_twelve hn]
    exact withDigits13_followsChecks (wellFormed_map_iff n d) (encCode_status R)

/-- The response of every instruction, by the checks of `WellFormed.lean`. -/
theorem instrResponse_followsChecks (R : Roms) (i : Instr) : (instrResponse R i).FollowsChecks i.wellFormed := by
  cases i with
  | enc n d => exact encResponse_followsChecks R n d
  | map n d => exact withDigits13_followsChecks (wellFormed_map_iff n d) fun _ => .inl rfl
  | chk n d => exact withDigits12_followsChecks (wellFormed_chk_iff n d) fun _ => .inl rfl
  | vfy n d => exact withDigits13_followsChecks (wellFormed_map_iff n d) vfyDigits_status

/-- Settles O20: the response follows the checks, and `OK` and `ChecksumMismatch` are not `InvalidInput`. -/
theorem invalidInputExactlyWhenIllFormed : Obligations.InvalidInputExactlyWhenIllFormed := by
  refine ⟨fun i s hwf => ?_, fun i s t hexec hstatus => ?_⟩
  · rw [exec_eq, (instrResponse_followsChecks roms i).rejected hwf]
    rfl
  · obtain rfl : s.complete (instrResponse roms i) = t := by simpa [exec_eq] using hexec
    rw [State.complete_status] at hstatus
    by_contra hwf
    have := (instrResponse_followsChecks roms i).accepted (Bool.eq_true_of_not_eq_false hwf)
    simp [hstatus] at this

/-! ### The reserved operation codes (R58, R123) -/

theorem opField_not_mem_assignedOps_iff (req : RequestWord) :
    opField req ∉ assignedOps ↔ req.toNat / 2 ^ 56 = 0 ∨ 5 ≤ req.toNat / 2 ^ 56 := by
  rw [not_mem_assignedOps_iff, opField_toNat]

theorem instrResponse_status_ne_three (R : Roms) (i : Instr) : (instrResponse R i).status ≠ 3 := by
  have hchecks := instrResponse_followsChecks R i
  cases hwf : i.wellFormed with
  | true => obtain h | h := hchecks.accepted hwf <;> simp [h]
  | false => simp [hchecks.rejected hwf, ErrorKind.code]

/-- Settles O11: a reserved code raises `IllegalOp`, and no instruction does. -/
theorem reservedOpEndsInIllegalOp : Obligations.ReservedOpEndsInIllegalOp := by
  refine ⟨fun R req hop => ?_, fun R req hstatus => ?_⟩
  · exact respond_of_reservedOp R ((opField_not_mem_assignedOps_iff req).mpr hop)
  · rw [← opField_not_mem_assignedOps_iff]
    cases hdec : decode req with
    | instr i => exact absurd (respond_of_decode_instr R hdec ▸ hstatus) (instrResponse_status_ne_three R i)
    | reservedOp op =>
      obtain ⟨rfl, hop⟩ := decode_eq_reservedOp_iff.mp hdec
      exact hop

/-- Settles O12: the step completes the transaction with the response of O11. -/
theorem reservedOpStepRaisesIllegalOp : Obligations.ReservedOpStepRaisesIllegalOp := by
  intro s req rest hop
  rw [step_of_request rfl, respond_of_reservedOp roms ((opField_not_mem_assignedOps_iff req).mpr hop)]
  rfl

/-! ### The nibbles above the count (R56) -/

theorem readDigits_congr {k : Nat} {d d' : Latches} {hk : k ≤ 13}
    (h : ∀ i : Fin k, d[i.val]'(by omega) = d'[i.val]'(by omega)) : readDigits k d hk = readDigits k d' hk :=
  Option.ext fun x => by simp only [readDigits_eq_some, h]

theorem withDigits12_congr {n : Nibble} {d d' : Latches} (h : ∀ i : Fin 13, i.val < n.toNat → d[i] = d'[i])
    (use : Digits12 → Response) : withDigits12 n d use = withDigits12 n d' use := by
  unfold withDigits12
  split
  next hn =>
    subst hn
    rw [readDigits_congr fun i : Fin 12 => h (i.castLE (by omega)) i.isLt]
  next => rfl

theorem withDigits13_congr {n : Nibble} {d d' : Latches} (h : ∀ i : Fin 13, i.val < n.toNat → d[i] = d'[i])
    (use : Code → Response) : withDigits13 n d use = withDigits13 n d' use := by
  unfold withDigits13
  split
  next hn =>
    subst hn
    rw [readDigits_congr fun i : Fin 13 => h i i.isLt]
  next => rfl

theorem encResponse_congr (R : Roms) {n : Nibble} {d d' : Latches} (h : ∀ i : Fin 13, i.val < n.toNat → d[i] = d'[i]) :
    encResponse R n d = encResponse R n d' := by
  unfold encResponse
  rw [withDigits12_congr h, withDigits13_congr h]

/-- Settles O26: the response is one of five, chosen by `OP`, and each reads below the count only. -/
theorem nibblesAboveTheCountAreIgnored : Obligations.NibblesAboveTheCountAreIgnored := by
  intro R req req' hop hlen hdig
  have henc := encResponse_congr R hdig
  have hmap : mapResponse R (lenField req) (loadLatches req) = mapResponse R (lenField req) (loadLatches req') :=
    withDigits13_congr hdig _
  have hchk : chkResponse (lenField req) (loadLatches req) = chkResponse (lenField req) (loadLatches req') :=
    withDigits12_congr hdig _
  have hvfy : vfyResponse (lenField req) (loadLatches req) = vfyResponse (lenField req) (loadLatches req') :=
    withDigits13_congr hdig _
  rw [respond_eq_by_op, respond_eq_by_op R req', ← hop, ← hlen, henc, hmap, hchk, hvfy]

end Sys2Proof.Machine
end

section
/-! Proofs of the statements about the toolchain (`30_encoding.md`): disassembly (R62), and the source's `encode` on
character strings (R63). -/

namespace Sys2Proof.Machine

/-! ### The operands of an assembled line (R61) -/

/-- The count of an assembled line. -/
def textCount (text : List Char) : Nibble := BitVec.ofNat 4 (min text.length 15)

/-- The operand nibbles of an assembled line. -/
def textLatches (text : List Char) : Latches := Vector.ofFn fun i : Fin 13 => charNibble text i.val

theorem assembleLine_eq (l : AsmLine) :
    assembleLine l = packRequest l.op.code (textCount l.text) (textLatches l.text) := rfl

theorem textCount_toNat (text : List Char) : (textCount text).toNat = min text.length 15 := by
  rw [textCount, BitVec.toNat_ofNat]
  omega

theorem getElem_textLatches_of_lt {text : List Char} {p : Nat} (hp : p < 13) (h : p < text.length) :
    (textLatches text)[p] = charValue text[p] := by
  simp [textLatches, charNibble, h]

theorem getElem_textLatches_of_le {text : List Char} {p : Nat} (hp : p < 13) (h : text.length ≤ p) :
    (textLatches text)[p] = 0 := by
  simp [textLatches, charNibble, h]

/-! ### Disassembly (R62) -/

theorem asmOpOf_wellFormed (op : Nibble) : (asmOpOf op).wellFormed = true := by
  decide +revert

theorem asmOpOf_code (op : Nibble) : (asmOpOf op).code = op := by
  decide +revert

theorem charValue_nibbleChar (v : Nibble) : charValue (nibbleChar v) = v := by
  decide +revert

theorem disassemble_text_length {req : RequestWord} (h : (lenField req).toNat ≤ 13) :
    (disassemble req).text.length = (lenField req).toNat := by
  simp [disassemble, h]

theorem textCount_disassemble {req : RequestWord} (h : (lenField req).toNat ≤ 13) :
    textCount (disassemble req).text = lenField req := by
  apply BitVec.eq_of_toNat_eq
  rw [textCount_toNat, disassemble_text_length h]
  omega

theorem textLatches_disassemble {req : RequestWord} (h : (lenField req).toNat ≤ 13)
    (hzero : ∀ i : Fin 13, (lenField req).toNat ≤ i.val → (loadLatches req)[i] = 0) :
    textLatches (disassemble req).text = loadLatches req := by
  have hlen := disassemble_text_length h
  refine Vector.ext fun p hp => ?_
  by_cases hshown : p < (lenField req).toNat
  · rw [getElem_textLatches_of_lt hp (by omega)]
    simp only [disassemble, List.getElem_map, List.getElem_take, Vector.getElem_toList, charValue_nibbleChar]
  · rw [getElem_textLatches_of_le hp (by omega)]
    exact (hzero ⟨p, hp⟩ (by simpa using hshown)).symm

/-- Settles O51: the assembled line has the word's own fields. -/
theorem assemblyRestoresDisassembledWord : Obligations.AssemblyRestoresDisassembledWord := by
  refine fun req => ⟨asmOpOf_wellFormed _, fun hcount hzero => ?_⟩
  rw [assembleLine_eq, textCount_disassemble hcount, textLatches_disassemble hcount hzero, disassemble, asmOpOf_code,
    packRequest_fields]

/-! ### The characters of a string as digits (R61, R70) -/

theorem charValue_toNat_of_digit {ch : Char} (h : 48 ≤ ch.toNat ∧ ch.toNat ≤ 57) :
    (charValue ch).toNat = ch.toNat - 48 := by
  rw [charValue, if_pos h, BitVec.toNat_ofNat]
  omega

theorem ten_le_charValue_toNat {ch : Char} (h : ¬ (48 ≤ ch.toNat ∧ ch.toNat ≤ 57)) : 10 ≤ (charValue ch).toNat := by
  rw [charValue, if_neg h]
  split_ifs <;> simp only [BitVec.toNat_ofNat] <;> omega

/-- The source reads a character as a digit exactly when the assembler gives it that digit's nibble. -/
theorem charDigit_eq_some_iff {ch : Char} {g : Digit} : charDigit ch = some g ↔ (charValue ch).toNat = g.val := by
  unfold charDigit
  split
  next h => rw [charValue_toNat_of_digit h, Option.some.injEq, Fin.ext_iff]
  next h =>
    have := g.isLt
    have := ten_le_charValue_toNat h
    simp only [reduceCtorEq, false_iff]
    omega

theorem parseDigits_eq_some_iff {text : List Char} {ds : List Digit} :
    parseDigits text = some ds ↔ text.map charDigit = ds.map some := by
  induction text generalizing ds with
  | nil => cases ds <;> simp [parseDigits]
  | cons ch text ih =>
    cases ds with
    | nil => cases hch : charDigit ch <;> cases htext : parseDigits text <;> simp [parseDigits, hch, htext]
    | cons g ds =>
      rw [List.map_cons, List.map_cons, List.cons.injEq, ← ih]
      cases hch : charDigit ch <;> cases htext : parseDigits text <;> simp [parseDigits, hch, htext]

theorem length_of_parseDigits {text : List Char} {ds : List Digit} (h : parseDigits text = some ds) :
    ds.length = text.length := by
  simpa using (congrArg List.length (parseDigits_eq_some_iff.mp h)).symm

/-- The source's parse and the unit's range check read the same digits of a string of `k` characters. -/
theorem parseDigits_eq_some_toList_iff {k : Nat} (hk : k ≤ 13) {text : List Char} (hlen : text.length = k)
    (x : Vector Digit k) : parseDigits text = some x.toList ↔ readDigits k (textLatches text) hk = some x := by
  have hchar : ∀ i : Fin k, charDigit text[i.val] = some x[i] ↔
      ((textLatches text)[i.val]'(by omega)).toNat = x[i].val := fun i => by
    rw [charDigit_eq_some_iff, getElem_textLatches_of_lt (by omega) (by omega)]
  rw [parseDigits_eq_some_iff, readDigits_eq_some, ← forall_congr' hchar, List.ext_getElem_iff]
  simp [hlen, Fin.forall_iff]

theorem parseDigits_eq_readDigits {k : Nat} (hk : k ≤ 13) {text : List Char} (hlen : text.length = k) :
    parseDigits text = (readDigits k (textLatches text) hk).map Vector.toList := by
  refine Option.ext fun ds => ?_
  rw [Option.map_eq_some_iff]
  constructor
  · intro h
    have hds : ds.toArray.size = k := (length_of_parseDigits h).trans hlen
    exact ⟨⟨ds.toArray, hds⟩, (parseDigits_eq_some_toList_iff hk hlen _).mp h, rfl⟩
  · rintro ⟨x, hx, rfl⟩
    exact (parseDigits_eq_some_toList_iff hk hlen x).mpr hx

/-! ### Steps 2 to 6 of the source, on the unit's vectors -/

theorem toList_eq_ofFn {k : Nat} (x : Vector Digit k) : x.toList = List.ofFn fun i : Fin k => x[i] := by
  rw [← Vector.toList_ofFn]
  exact congrArg Vector.toList Vector.ofFn_getElem.symm

theorem weightedSum_toList_of_twelve (x : Digits12) : weightedSum x.toList = wsum12 x := by
  simp [toList_eq_ofFn, weightedSum, wsum12]
  omega

theorem weightedSum_toList (y : Code) : weightedSum y.toList = wsum13 y := by
  simp [toList_eq_ofFn, weightedSum, wsum13]
  omega

theorem sourceChecksum_toList_of_twelve (x : Digits12) : sourceChecksum x.toList = checkdigit x := by
  simp only [sourceChecksum, weightedSum_toList_of_twelve, checkdigit, tenComplement]

theorem sourceChecksum_toList (y : Code) : sourceChecksum y.toList = checksum13 y := by
  simp only [sourceChecksum, weightedSum_toList, checksum13, tenComplement]

theorem completeDigits_toList_of_twelve (x : Digits12) : completeDigits x.toList = (appendCheck x).toList := by
  rw [completeDigits, if_pos x.length_toList, sourceChecksum_toList_of_twelve, appendCheck, Vector.toList_push]

theorem completeDigits_toList (y : Code) : completeDigits y.toList = y.toList := by
  simp [completeDigits]

theorem sourceModules_toList (R : Roms) (y : Code) : sourceModules R y.toList = assemble R y := by
  simp [toList_eq_ofFn, List.finRange, sourceModules, sourceLeft, sourceRight, assemble, leftBlock, rightBlock, guardEnd,
    guardCenter, pat, sel]

theorem nibbleChar_digitNibble (g : Digit) : nibbleChar (digitNibble g) = digitChar g := by
  decide +revert

/-- The label as characters is the source's label (R17, R63). -/
theorem map_digitChar_toList (y : Code) :
    y.toList.map digitChar = (List.finRange 13).map fun i => nibbleChar (labelNibble (labelWord y) i) := by
  rw [toList_eq_ofFn, List.map_ofFn, List.ofFn_eq_map]
  simp [labelWord, labelNibble_packNibbles, nibbleChar_digitNibble]

theorem valid13_iff_checksum13 (y : Code) : valid13 y = true ↔ (checksum13 y).val = 0 := by
  rw [valid13, beq_iff_eq, checksum13, ← tenComplement_eq_zero, Fin.val_eq_zero_iff]

/-! ### ENC and the source's `encode` (R63) -/

/-- The response says what the source's result says. -/
def Response.Answers (r : Response) : SourceResult → Prop
  | .ok b => r.status = 0 ∧ r.mod = modWord b.modules ∧ b.modules.length = 95 ∧
      b.label = (List.finRange 13).map fun i => nibbleChar (labelNibble r.label i)
  | .error .invalidInput => r = raise .invalidInput
  | .error .checksumMismatch => r = raise .checksumMismatch

theorem encCode_answers_sourceFinish (R : Roms) (y : Code) : (encCode R y).Answers (sourceFinish R y.toList) := by
  rw [encCode, sourceFinish, sourceChecksum_toList, sourceModules_toList, map_digitChar_toList]
  simp only [← valid13_iff_checksum13]
  split
  · exact ⟨rfl, rfl, assemble_length R y, rfl⟩
  · rfl

theorem sourceEncode_of_readDigits_some {k : Nat} {hk : k ≤ 13} (hcount : k = 12 ∨ k = 13) {text : List Char}
    (hlen : text.length = k) {x : Vector Digit k} (h : readDigits k (textLatches text) hk = some x) (R : Roms) :
    sourceEncode R text = sourceFinish R (completeDigits x.toList) := by
  simp [sourceEncode, parseDigits_eq_readDigits hk hlen, h, hcount]

theorem sourceEncode_of_readDigits_none {k : Nat} {hk : k ≤ 13} {text : List Char} (hlen : text.length = k)
    (h : readDigits k (textLatches text) hk = none) (R : Roms) : sourceEncode R text = .error .invalidInput := by
  simp [sourceEncode, parseDigits_eq_readDigits hk hlen, h]

theorem sourceEncode_of_length {text : List Char} (h : ¬ (text.length = 12 ∨ text.length = 13)) (R : Roms) :
    sourceEncode R text = .error .invalidInput := by
  unfold sourceEncode
  split
  next => rfl
  next ds hds => rw [if_neg (length_of_parseDigits hds ▸ h)]

theorem encResponse_answers_of_twelve (R : Roms) {text : List Char} (hlen : text.length = 12) :
    (encResponse R 12#4 (textLatches text)).Answers (sourceEncode R text) := by
  rw [encResponse, if_pos rfl, withDigits12, if_pos rfl]
  cases h : readDigits 12 (textLatches text) with
  | none =>
    rw [sourceEncode_of_readDigits_none hlen h]
    rfl
  | some x =>
    rw [sourceEncode_of_readDigits_some (.inl rfl) hlen h, completeDigits_toList_of_twelve]
    exact encCode_answers_sourceFinish R (appendCheck x)

theorem encResponse_answers_of_thirteen (R : Roms) {text : List Char} (hlen : text.length = 13) :
    (encResponse R 13#4 (textLatches text)).Answers (sourceEncode R text) := by
  rw [encResponse, if_neg (by decide), withDigits13, if_pos rfl]
  cases h : readDigits 13 (textLatches text) with
  | none =>
    rw [sourceEncode_of_readDigits_none hlen h]
    rfl
  | some y =>
    rw [sourceEncode_of_readDigits_some (.inr rfl) hlen h, completeDigits_toList]
    exact encCode_answers_sourceFinish R y

theorem encResponse_answers_of_length (R : Roms) {text : List Char} (hlen : ¬ (text.length = 12 ∨ text.length = 13)) :
    (encResponse R (textCount text) (textLatches text)).Answers (sourceEncode R text) := by
  have htwelve : textCount text ≠ 12#4 := by
    rw [Ne, eq_twelve_iff, textCount_toNat]
    omega
  have hthirteen : textCount text ≠ 13#4 := by
    rw [Ne, eq_thirteen_iff, textCount_toNat]
    omega
  rw [sourceEncode_of_length hlen, encResponse, if_neg htwelve, withDigits13, if_neg hthirteen]
  rfl

theorem encResponse_answers_sourceEncode (R : Roms) (text : List Char) :
    (encResponse R (textCount text) (textLatches text)).Answers (sourceEncode R text) := by
  by_cases hlen : text.length = 12 ∨ text.length = 13
  · obtain hlen | hlen := hlen
    · rw [show textCount text = 12#4 by rw [textCount, hlen]; rfl]
      exact encResponse_answers_of_twelve R hlen
    · rw [show textCount text = 13#4 by rw [textCount, hlen]; rfl]
      exact encResponse_answers_of_thirteen R hlen
  · exact encResponse_answers_of_length R hlen

theorem respond_assembleLine_enc (R : Roms) (text : List Char) :
    respond R (assembleLine ⟨.enc, text⟩) = encResponse R (textCount text) (textLatches text) := by
  simp [respond_eq_by_op, assembleLine_eq, AsmOp.code]

/-- Settles O50, by the length of the string: 12, 13, or one that both sides reject. -/
theorem encOfAssembledStringMatchesTheSource : Obligations.EncOfAssembledStringMatchesTheSource := by
  intro R text
  rw [respond_assembleLine_enc]
  exact encResponse_answers_sourceEncode R text

end Sys2Proof.Machine
end

section
/-! Proofs of the statements about the check digit (`40_check_digit.md`): the weighted sums, the check digit and the
validation, and the operations CHK and VFY. -/

namespace Sys2Proof.Machine

/-! ### The weighted sums (R72, R76) -/

/-- The weight of a digit position: 1 at the even positions, 3 at the odd ones (R72). -/
def digitWeight (i : Fin 13) : Nat := if i.val % 2 = 0 then 1 else 3

theorem digitWeight_cases (i : Fin 13) : digitWeight i = 1 ∨ digitWeight i = 3 := by
  unfold digitWeight
  split
  · exact .inl rfl
  · exact .inr rfl

theorem wsum13_eq_sum (y : Code) : wsum13 y = ∑ i : Fin 13, digitWeight i * y[i].val := by
  simp [Fin.sum_univ_succ, digitWeight, wsum13]
  omega

theorem wsum13_le (y : Code) : wsum13 y ≤ 225 := by
  calc wsum13 y = ∑ i : Fin 13, digitWeight i * y[i].val := wsum13_eq_sum y
    _ ≤ ∑ i : Fin 13, digitWeight i * 9 :=
      Finset.sum_le_sum fun i _ => Nat.mul_le_mul_left _ (Nat.le_of_lt_succ y[i].isLt)
    _ = 225 := by decide

/-- The digit behind the first 12 has weight 1 (R72). -/
theorem wsum13_push (x : Digits12) (g : Digit) : wsum13 (x.push g) = wsum12 x + g.val := by
  simp [wsum13, wsum12]
  omega

/-- The bound of the longer sum, less a 9 at position 12. -/
theorem wsum12_le (x : Digits12) : wsum12 x ≤ 216 := by
  have hle := wsum13_le (x.push 9)
  rw [wsum13_push] at hle
  exact Nat.le_of_add_le_add_right hle

/-- Settles O29: both bounds are reached when every digit is 9. -/
theorem weightedSumBounds : Obligations.WeightedSumBounds :=
  ⟨wsum12_le, wsum13_le, ⟨Vector.replicate 12 9, by decide⟩, ⟨Vector.replicate 13 9, by decide⟩, wsum13_push⟩

/-! ### The check digit and the validation (R73, R75, R79) -/

theorem valid13_iff_wsum13 (y : Code) : valid13 y = true ↔ wsum13 y % 10 = 0 := beq_iff_eq

theorem checksum13_eq_zero_iff (y : Code) : checksum13 y = 0 ↔ wsum13 y % 10 = 0 := tenComplement_eq_zero (wsum13 y)

/-- Settles O31: each side says that the weighted sum is a multiple of 10. -/
theorem validExactlyWhenChecksumIsZero : Obligations.ValidExactlyWhenChecksumIsZero :=
  fun y => ⟨valid13_iff_wsum13 y, (valid13_iff_wsum13 y).trans (checksum13_eq_zero_iff y).symm⟩

/-- The complement to ten is the floored remainder (R7, R73). -/
theorem tenComplement_val_eq_fmod (w : Nat) : ((tenComplement w).val : Int) = Int.fmod (10 - (w : Int)) 10 := by
  rw [Int.fmod_eq_emod_of_nonneg _ (by decide)]
  exact Int.toNat_of_nonneg (Int.emod_nonneg _ (by decide))

theorem tenComplement_val_eq_ite (w : Nat) :
    (tenComplement w).val = if w % 10 = 0 then 0 else 10 - w % 10 := by
  rw [tenComplement_val]
  split <;> omega

/-- The complement to ten is the one digit that completes a sum to a multiple of 10. -/
theorem add_digit_mod_ten_eq_zero_iff (w : Nat) (g : Digit) : (w + g.val) % 10 = 0 ↔ g = tenComplement w := by
  have := g.isLt
  rw [Fin.ext_iff, tenComplement_val]
  omega

theorem valid13_push_iff (x : Digits12) (g : Digit) : valid13 (x.push g) = true ↔ g = checkdigit x := by
  rw [valid13_iff_wsum13, wsum13_push]
  exact add_digit_mod_ten_eq_zero_iff (wsum12 x) g

/-- Settles O32. -/
theorem validExactlyWhenLastDigitIsCheckDigit : Obligations.ValidExactlyWhenLastDigitIsCheckDigit := valid13_push_iff

/-- Settles O30: the forms are those of the complement to ten, and completing the code is its validity (O31, O32). -/
theorem checkDigitIsTheFlooredRemainder : Obligations.CheckDigitIsTheFlooredRemainder := by
  refine ⟨fun x => tenComplement_val_eq_fmod (wsum12 x), fun y => tenComplement_val_eq_fmod (wsum13 y),
    fun x => tenComplement_val (wsum12 x), fun x => tenComplement_val_eq_ite (wsum12 x), fun x g => ?_,
    by decide, by decide⟩
  rw [← valid13_push_iff]
  exact (validExactlyWhenChecksumIsZero (x.push g)).2.symm

/-! ### One changed digit (R78) -/

/-- The weighted sum, with the digit of one position apart. -/
theorem wsum13_eq_add_erase (y : Code) (i : Fin 13) :
    wsum13 y = digitWeight i * y[i].val + ∑ j ∈ Finset.univ.erase i, digitWeight j * y[j].val :=
  (wsum13_eq_sum y).trans (Finset.add_sum_erase _ (fun j => digitWeight j * y[j].val) (Finset.mem_univ i)).symm

/-- Changing a digit takes its weighted value out of the sum and puts the new one in. -/
theorem wsum13_set (y : Code) (i : Fin 13) (g : Digit) :
    wsum13 (y.set i g) + digitWeight i * y[i].val = wsum13 y + digitWeight i * g.val := by
  have hnew : (y.set i g)[i] = g := Vector.getElem_set_self i.isLt
  have hrest : ∀ j ∈ Finset.univ.erase i, digitWeight j * (y.set i g)[j].val = digitWeight j * y[j].val := by
    intro j hj
    have hne : i.val ≠ j.val := fun h => Finset.ne_of_mem_erase hj (Fin.ext h.symm)
    simp [hne]
  rw [wsum13_eq_add_erase _ i, wsum13_eq_add_erase y i, hnew, Finset.sum_congr rfl hrest]
  omega

/-- Settles O33: both weights are prime to 10, so the changed sum is another residue. -/
theorem changedDigitIsCaught : Obligations.ChangedDigitIsCaught := by
  intro y i g hvalid hne
  have hset := wsum13_set y i g
  have hg := g.isLt
  have hy := y[i].isLt
  rw [Ne, Fin.ext_iff] at hne
  rw [valid13_iff_wsum13] at hvalid
  rw [← Bool.not_eq_true, valid13_iff_wsum13]
  obtain hw | hw := digitWeight_cases i <;> rw [hw] at hset <;> omega

/-! ### CHK and VFY (R77, R78) -/

theorem withDigits12_eq_raise {n : Nibble} {d : Latches} (use : Digits12 → Response)
    (h : n ≠ 12#4 ∨ ∃ i : Fin 12, 9 < (d[i.val]'(by omega)).toNat) :
    withDigits12 n d use = raise .invalidInput := by
  obtain ⟨x, hn, hd, -⟩ | ⟨-, hraise⟩ := withDigits12_cases n d use
  · obtain hcount | ⟨i, hi⟩ := h
    · exact absurd hn hcount
    · exact absurd (hd i ▸ x[i].isLt) (Nat.not_lt.mpr hi)
  · exact hraise

theorem withDigits13_eq_raise {n : Nibble} {d : Latches} (use : Code → Response)
    (h : n ≠ 13#4 ∨ ∃ i : Fin 13, 9 < d[i].toNat) : withDigits13 n d use = raise .invalidInput := by
  obtain ⟨y, hn, hd, -⟩ | ⟨-, hraise⟩ := withDigits13_cases n d use
  · obtain hcount | ⟨i, hi⟩ := h
    · exact absurd hn hcount
    · exact absurd (hd i ▸ y[i].isLt) (Nat.not_lt.mpr hi)
  · exact hraise

/-- Settles O18: the transaction completes with the response of the digits read, or with `InvalidInput`. -/
theorem chkOfTwelveDigitsAppends : Obligations.ChkOfTwelveDigitsAppends := by
  refine ⟨fun d x s hd => ?_, fun n d s hbad => ?_⟩
  · rw [exec_eq, instrResponse, chkResponse, withDigits12_eq chkDigits hd]
    rfl
  · rw [exec_eq, instrResponse, chkResponse, withDigits12_eq_raise chkDigits hbad]
    rfl

theorem vfyDigits_of_valid {y : Code} (h : wsum13 y % 10 = 0) : vfyDigits y = succeed (labelWord y) 0 :=
  if_pos ((valid13_iff_wsum13 y).mpr h)

theorem vfyDigits_of_invalid {y : Code} (h : wsum13 y % 10 ≠ 0) : vfyDigits y = raise .checksumMismatch :=
  if_neg (mt (valid13_iff_wsum13 y).mp h)

/-- Settles O19, by the validation of the digits read; without digits it is `InvalidInput`. -/
theorem vfyOfThirteenDigitsValidates : Obligations.VfyOfThirteenDigitsValidates := by
  refine ⟨fun d y s hd hsum => ?_, fun d y s hd hsum => ?_, fun n d s hbad => ?_⟩
  · rw [exec_eq, instrResponse, vfyResponse, withDigits13_eq vfyDigits hd, vfyDigits_of_valid hsum]
    rfl
  · rw [exec_eq, instrResponse, vfyResponse, withDigits13_eq vfyDigits hd, vfyDigits_of_invalid hsum]
    rfl
  · rw [exec_eq, instrResponse, vfyResponse, withDigits13_eq_raise vfyDigits hbad]
    rfl

end Sys2Proof.Machine
end

section
/-! Proofs of the statements about the mapper (`41_mapper.md`): the operation MAP, the pattern of each position, where
the modules of the patterns and guards stand, and what the modules depend on. -/

namespace Sys2Proof.Machine

/-! ### MAP (R99) -/

/-- Settles O17: the transaction completes with the response of the digits read, or with `InvalidInput`. -/
theorem mapOfThirteenDigitsMaps : Obligations.MapOfThirteenDigitsMaps := by
  refine ⟨fun d y s hd => ?_, fun n d s hbad => ?_⟩
  · rw [exec_eq, instrResponse, mapResponse, withDigits13_eq (mapDigits roms) hd]
    rfl
  · rw [exec_eq, instrResponse, mapResponse, withDigits13_eq_raise (mapDigits roms) hbad]
    rfl

/-! ### The pattern of each position (R91, R92) -/

theorem pat_of_le_six (R : Roms) (y : Code) {i : Nat} (h : 1 ≤ i ∧ i ≤ 12) (hi : i ≤ 6) :
    pat R y i h = readPattern R (sel R y i ⟨h.1, hi⟩).codeset (y[i]'(by omega)) :=
  dif_pos hi

theorem pat_of_seven_le (R : Roms) (y : Code) {i : Nat} (h : 1 ≤ i ∧ i ≤ 12) (hi : 7 ≤ i) :
    pat R y i h = readPattern R .R (y[i]'(by omega)) :=
  dif_neg (by omega)

/-- The selector of a left position is bit `6 - i` of the parity row of the first digit (R32, R91). -/
theorem sel_eq_selectorOfBit (R : Roms) (y : Code) {i : Nat} (h : 1 ≤ i ∧ i ≤ 6) :
    sel R y i h = selectorOfBit ((R.parity[y[0]]).getLsbD (6 - i)) := by
  have hidx : 5 - (i - 1) = 6 - i := by omega
  simp only [sel, rowSelector, readParity, hidx]

/-- Settles O35: the selector of a left position is a bit of the parity row, and right positions have none. -/
theorem patternSelection : Obligations.PatternSelection := by
  refine fun R y i h => ⟨fun hi hbit => ?_, fun hi hbit => ?_, fun hi => ?_⟩
  · rw [pat_of_le_six R y h hi, sel_eq_selectorOfBit, hbit]
    rfl
  · rw [pat_of_le_six R y h hi, sel_eq_selectorOfBit, hbit]
    rfl
  · rw [pat_of_seven_le R y h hi]
    rfl

/-! ### The parts of the module sequence (R97) -/

/-- Module `k` of a part that stands at `a`. -/
theorem getElem?_of_slice {ms part : List Bool} {a n k : Nat} (h : (ms.drop a).take n = part) (hk : k < n) :
    ms[a + k]? = part[k]? := by
  rw [← h, List.getElem?_take_of_lt hk, List.getElem?_drop]

theorem assemble_slice_guardStart (R : Roms) (y : Code) : ((assemble R y).drop 0).take 3 = guardEnd := by
  simp [assemble, guardEnd]

theorem assemble_slice_leftBlock (R : Roms) (y : Code) : ((assemble R y).drop 3).take 42 = leftBlock R y := by
  simp [assemble, guardEnd]

theorem assemble_slice_guardCenter (R : Roms) (y : Code) : ((assemble R y).drop 45).take 5 = guardCenter := by
  simp [assemble, guardEnd, guardCenter]

theorem assemble_slice_rightBlock (R : Roms) (y : Code) : ((assemble R y).drop 50).take 42 = rightBlock R y := by
  simp [assemble, guardEnd, guardCenter, List.drop_append, List.drop_of_length_le]

theorem assemble_drop_guardFinish (R : Roms) (y : Code) : (assemble R y).drop 92 = guardEnd := by
  simp [assemble, guardEnd, guardCenter, List.drop_append, List.drop_of_length_le]

theorem assemble_slice_guardFinish (R : Roms) (y : Code) : ((assemble R y).drop 92).take 3 = guardEnd := by
  rw [assemble_drop_guardFinish]
  rfl

theorem assemble_getElem?_guardStart (R : Roms) (y : Code) (k : Nat) (hk : k < 3) :
    (assemble R y)[k]? = guardEnd[k]? := by
  have h := getElem?_of_slice (assemble_slice_guardStart R y) hk
  rwa [Nat.zero_add] at h

theorem assemble_getElem?_guardCenter (R : Roms) (y : Code) (k : Nat) (hk : k < 5) :
    (assemble R y)[45 + k]? = guardCenter[k]? :=
  getElem?_of_slice (assemble_slice_guardCenter R y) hk

theorem assemble_getElem?_guardFinish (R : Roms) (y : Code) (k : Nat) (hk : k < 3) :
    (assemble R y)[92 + k]? = guardEnd[k]? :=
  getElem?_of_slice (assemble_slice_guardFinish R y) hk

/-- Settles O36: the fixed modules are those of the guards, and module 0 is a bar, so `MOD` is not zero. -/
theorem assembledLengthAndGuards : Obligations.AssembledLengthAndGuards := by
  intro R y
  have hstart := assemble_getElem?_guardStart R y
  have hcenter := assemble_getElem?_guardCenter R y
  have hfinish := assemble_getElem?_guardFinish R y
  refine ⟨assemble_length R y, assemble_slice_guardStart R y, assemble_drop_guardFinish R y,
    assemble_slice_guardCenter R y, ?_, ?_, fun hzero => ?_⟩
  · simp only [List.forall_mem_cons]
    exact ⟨hstart 0 (by decide), hstart 2 (by decide), hcenter 1 (by decide), hcenter 3 (by decide),
      hfinish 0 (by decide), hfinish 2 (by decide), List.forall_mem_nil _⟩
  · simp only [List.forall_mem_cons]
    exact ⟨hstart 1 (by decide), hcenter 0 (by decide), hcenter 2 (by decide), hcenter 4 (by decide),
      hfinish 1 (by decide), List.forall_mem_nil _⟩
  · have hbar : some true = some (moduleAt (barcode R y) 0) :=
      (hstart 0 (by decide)).symm.trans (modHoldsTheModuleSequence R y 0)
    rw [hzero] at hbar
    exact absurd hbar (by decide)

/-! ### The modules of the patterns (R93, R94, R97) -/

/-- The patterns of six positions from `a` on. -/
def sixPatterns (R : Roms) (y : Code) (a : Nat) (ha : 1 ≤ a ∧ a ≤ 7) : List PatternEntry :=
  List.ofFn fun k : Fin 6 => pat R y (a + k.val) (by omega)

theorem leftBlock_eq_flatMap (R : Roms) (y : Code) :
    leftBlock R y = (sixPatterns R y 1 (by decide)).flatMap entryModules := by
  simp [leftBlock, sixPatterns]

theorem rightBlock_eq_flatMap (R : Roms) (y : Code) :
    rightBlock R y = (sixPatterns R y 7 (by decide)).flatMap entryModules := by
  simp [rightBlock, sixPatterns]

theorem getElem?_sixPatterns (R : Roms) (y : Code) {a : Nat} (ha : 1 ≤ a ∧ a ≤ 7) {i : Nat} (hi : 1 ≤ i ∧ i ≤ 12)
    (hlo : a ≤ i) (hhi : i < a + 6) : (sixPatterns R y a ha)[i - a]? = some (pat R y i hi) := by
  have hk : i - a < 6 := by omega
  have hidx : a + (i - a) = i := by omega
  simp only [sixPatterns, List.getElem?_ofFn, hk, hidx, dif_pos]

/-- Every pattern takes seven modules. -/
theorem getElem?_flatMap_entryModules {ps : List PatternEntry} {k : Nat} {p : PatternEntry} (hp : ps[k]? = some p)
    {j : Nat} (hj : j < 7) : (ps.flatMap entryModules)[7 * k + j]? = some (p.getLsbD (6 - j)) := by
  induction ps generalizing k with
  | nil => simp at hp
  | cons q ps ih =>
    cases k with
    | zero =>
      obtain rfl : q = p := by simpa using hp
      have hlt : j < (entryModules q).length := by simpa using hj
      rw [List.flatMap_cons, Nat.mul_zero, Nat.zero_add, List.getElem?_append_left hlt, entryModules_getElem? q j hj]
    | succ k =>
      have hle : (entryModules q).length ≤ 7 * (k + 1) + j := by rw [entryModules_length]; omega
      have hidx : 7 * (k + 1) + j - (entryModules q).length = 7 * k + j := by rw [entryModules_length]; omega
      rw [List.flatMap_cons, List.getElem?_append_right hle, hidx]
      exact ih (by simpa using hp)

theorem assemble_getElem?_left (R : Roms) (y : Code) {i : Nat} (h : 1 ≤ i ∧ i ≤ 6) {j : Nat} (hj : j < 7) :
    (assemble R y)[3 + 7 * (i - 1) + j]? = some ((pat R y i ⟨h.1, by omega⟩).getLsbD (6 - j)) := by
  rw [Nat.add_assoc, getElem?_of_slice (assemble_slice_leftBlock R y) (by omega), leftBlock_eq_flatMap]
  exact getElem?_flatMap_entryModules (getElem?_sixPatterns R y _ _ (by omega) (by omega)) hj

theorem assemble_getElem?_right (R : Roms) (y : Code) {i : Nat} (h : 7 ≤ i ∧ i ≤ 12) {j : Nat} (hj : j < 7) :
    (assemble R y)[50 + 7 * (i - 7) + j]? = some ((pat R y i ⟨by omega, h.2⟩).getLsbD (6 - j)) := by
  rw [Nat.add_assoc, getElem?_of_slice (assemble_slice_rightBlock R y) (by omega), rightBlock_eq_flatMap]
  exact getElem?_flatMap_entryModules (getElem?_sixPatterns R y _ _ (by omega) (by omega)) hj

/-! ### `MOD` as a concatenation (R97) -/

/-- The bits of a word as modules, the most significant first (R18, R34). -/
def wordModules {w : Nat} (v : BitVec w) : List Bool := List.ofFn fun j : Fin w => v.getMsbD j.val

theorem wordModules_getElem? {w : Nat} (v : BitVec w) (j : Nat) :
    (wordModules v)[j]? = if j < w then some (v.getMsbD j) else none :=
  List.getElem?_ofFn

theorem wordModules_length {w : Nat} (v : BitVec w) : (wordModules v).length = w := List.length_ofFn

theorem wordModules_append {v w : Nat} (a : BitVec v) (b : BitVec w) :
    wordModules (a ++ b) = wordModules a ++ wordModules b := by
  refine List.ext_getElem? fun j => ?_
  rw [List.getElem?_append, wordModules_length, wordModules_getElem?, wordModules_getElem?, wordModules_getElem?,
    BitVec.getMsbD_append]
  by_cases hj : j < v
  · have hv : ¬ v ≤ j := Nat.not_le.mpr hj
    simp [hj, hv, Nat.lt_add_right]
  · have hv : v ≤ j := Nat.not_lt.mp hj
    have hw : j < v + w ↔ j - v < w := by omega
    simp [hj, hv, hw]

theorem wordModules_entry (p : PatternEntry) : wordModules p = entryModules p := by
  refine List.ext_getElem? fun j => ?_
  rw [wordModules_getElem?]
  split
  next hj => rw [entryModules_getElem? p j hj, BitVec.getMsbD, decide_eq_true hj, Bool.true_and]
  next hj => rw [List.getElem?_eq_none (by rw [entryModules_length]; omega)]

/-- Reading the modules of a value of `MOD` back gives the value. -/
theorem modWord_wordModules (v : ModWord) : modWord (wordModules v) = v := by
  refine BitVec.eq_of_getMsbD_eq fun m hm => ?_
  have hmod := moduleAt_modWord (wordModules_length v) ⟨m, hm⟩
  rw [wordModules_getElem?, if_pos hm, Option.some.injEq] at hmod
  rw [hmod, BitVec.getMsbD, decide_eq_true hm, Bool.true_and]
  rfl

/-- Guards and patterns as words, one behind the other, are the module sequence. -/
theorem wordModules_concatenation (R : Roms) (y : Code) :
    wordModules (0b101#3 ++ pat R y 1 ++ pat R y 2 ++ pat R y 3 ++ pat R y 4 ++ pat R y 5 ++ pat R y 6 ++ 0b01010#5
      ++ pat R y 7 ++ pat R y 8 ++ pat R y 9 ++ pat R y 10 ++ pat R y 11 ++ pat R y 12 ++ 0b101#3) = assemble R y := by
  have hend : wordModules 0b101#3 = guardEnd := by decide
  have hcenter : wordModules 0b01010#5 = guardCenter := by decide
  simp only [wordModules_append, wordModules_entry, hend, hcenter, assemble, leftBlock, rightBlock, List.append_assoc]

/-- Settles O37: a part of the sequence is its patterns, seven modules each, and the words spell the sequence. -/
theorem modulePlacement : Obligations.ModulePlacement := fun R y =>
  ⟨fun _ h _ => assemble_getElem?_left R y h, fun _ h _ => assemble_getElem?_right R y h, rfl,
    (congrArg modWord (wordModules_concatenation R y)).symm.trans (modWord_wordModules _)⟩

/-! ### What the modules depend on (R100) -/

/-- Where the seven modules of position `i` begin (R97). -/
def patternStart (i : Nat) : Nat := if i ≤ 6 then 3 + 7 * (i - 1) else 50 + 7 * (i - 7)

theorem patternStart_of_le_six {i : Nat} (h : i ≤ 6) : patternStart i = 3 + 7 * (i - 1) := if_pos h

theorem patternStart_of_seven_le {i : Nat} (h : 7 ≤ i) : patternStart i = 50 + 7 * (i - 7) := if_neg (by omega)

/-- Module `m` belongs to the pattern of position `i`. -/
def InPattern (i m : Nat) : Prop := patternStart i ≤ m ∧ m < patternStart i + 7

theorem inPattern_iff_of_le_six {i m : Nat} (h : i ≤ 6) :
    InPattern i m ↔ 3 + 7 * (i - 1) ≤ m ∧ m < 10 + 7 * (i - 1) := by
  rw [InPattern, patternStart_of_le_six h]
  omega

theorem inPattern_iff_of_seven_le {i m : Nat} (h : 7 ≤ i) :
    InPattern i m ↔ 50 + 7 * (i - 7) ≤ m ∧ m < 57 + 7 * (i - 7) := by
  rw [InPattern, patternStart_of_seven_le h]
  omega

/-- No module belongs to two positions. -/
theorem inPattern_unique {i k m : Nat} (hi : 1 ≤ i) (hk : 1 ≤ k) (him : InPattern i m) (hkm : InPattern k m) :
    i = k := by
  unfold InPattern patternStart at him hkm
  split_ifs at him hkm <;> omega

theorem assemble_getElem?_pattern (R : Roms) (y : Code) {i : Nat} (h : 1 ≤ i ∧ i ≤ 12) {j : Nat} (hj : j < 7) :
    (assemble R y)[patternStart i + j]? = some ((pat R y i h).getLsbD (6 - j)) := by
  by_cases hi : i ≤ 6
  · rw [patternStart_of_le_six hi]
    exact assemble_getElem?_left R y ⟨h.1, hi⟩ hj
  · rw [patternStart_of_seven_le (by omega)]
    exact assemble_getElem?_right R y ⟨by omega, h.2⟩ hj

/-- A module belongs to a guard, the same for every code and all tables, or to the pattern of a position. -/
theorem guard_or_inPattern {m : Nat} (hm : m < 95) :
    (∃ b, ∀ R y, (assemble R y)[m]? = b) ∨ ∃ i, (1 ≤ i ∧ i ≤ 12) ∧ InPattern i m := by
  obtain hpart | hpart | hpart | hpart | hpart :
    m < 3 ∨ (3 ≤ m ∧ m < 45) ∨ (45 ≤ m ∧ m < 50) ∨ (50 ≤ m ∧ m < 92) ∨ 92 ≤ m := by omega
  · exact .inl ⟨guardEnd[m]?, fun R y => assemble_getElem?_guardStart R y m hpart⟩
  · refine .inr ⟨(m - 3) / 7 + 1, by omega, ?_⟩
    rw [inPattern_iff_of_le_six (by omega)]
    omega
  · refine .inl ⟨guardCenter[m - 45]?, fun R y => ?_⟩
    conv_lhs => rw [← Nat.add_sub_cancel' hpart.1]
    exact assemble_getElem?_guardCenter R y _ (by omega)
  · refine .inr ⟨(m - 50) / 7 + 7, by omega, ?_⟩
    rw [inPattern_iff_of_seven_le (by omega)]
    omega
  · refine .inl ⟨guardEnd[m - 92]?, fun R y => ?_⟩
    conv_lhs => rw [← Nat.add_sub_cancel' hpart]
    exact assemble_getElem?_guardFinish R y _ (by omega)

/-- Two codes have the same module `m` if the position that `m` belongs to has the same pattern in both. -/
theorem moduleAt_barcode_congr {R : Roms} {y z : Code} {m : Fin 95}
    (h : ∀ i (hi : 1 ≤ i ∧ i ≤ 12), InPattern i m → pat R y i hi = pat R z i hi) :
    moduleAt (barcode R y) m = moduleAt (barcode R z) m := by
  suffices hmod : (assemble R y)[m.val]? = (assemble R z)[m.val]? by
    rwa [modHoldsTheModuleSequence, modHoldsTheModuleSequence, Option.some.injEq] at hmod
  obtain ⟨b, hb⟩ | ⟨i, hi, hin⟩ := guard_or_inPattern m.isLt
  · rw [hb, hb]
  · obtain ⟨j, hj⟩ := Nat.exists_eq_add_of_le hin.1
    have hj7 : j < 7 := by have := hin.2; omega
    rw [hj, assemble_getElem?_pattern R y hi hj7, assemble_getElem?_pattern R z hi hj7, h i hi hin]

theorem pat_congr {R : Roms} {y z : Code} {i : Nat} (h : 1 ≤ i ∧ i ≤ 12) (h0 : y[0] = z[0])
    (hdigit : y[i]'(by omega) = z[i]'(by omega)) : pat R y i h = pat R z i h := by
  simp only [pat, sel, h0, hdigit]

theorem pat_congr_of_seven_le {R : Roms} {y z : Code} {i : Nat} (h : 1 ≤ i ∧ i ≤ 12) (hi : 7 ≤ i)
    (hdigit : y[i]'(by omega) = z[i]'(by omega)) : pat R y i h = pat R z i h := by
  rw [pat_of_seven_le R y h hi, pat_of_seven_le R z h hi, hdigit]

/-- With the default tables position 1 has codeset L whatever the first digit (R36). -/
theorem pat_roms_one (y : Code) : pat roms y 1 = readPattern roms .L y[1] := by
  have hsel : sel roms y 1 = .L := rowSelector_readParity_roms_zero y[0]
  rw [pat_of_le_six roms y _ (by decide), hsel]
  rfl

/-- Settles O39: the patterns of the positions that a module can belong to do not see the digits changed. -/
theorem moduleDependence : Obligations.ModuleDependence := by
  refine fun R y z => ⟨fun i h h0 hdigit m hlo hhi => ?_, fun i h hdigit m hlo hhi => ?_, fun hrest m hm => ?_,
    fun hrest m hm => ?_, fun hrest m hm => ?_⟩ <;> refine moduleAt_barcode_congr fun p hp hin => ?_
  · obtain rfl := inPattern_unique h.1 hp.1 ((inPattern_iff_of_le_six h.2).mpr ⟨hlo, hhi⟩) hin
    exact pat_congr hp h0 hdigit
  · obtain rfl := inPattern_unique (by omega) hp.1 ((inPattern_iff_of_seven_le h.1).mpr ⟨hlo, hhi⟩) hin
    exact pat_congr_of_seven_le hp h.1 hdigit
  · have hright : 7 ≤ p := by
      by_contra hleft
      rw [inPattern_iff_of_le_six (by omega)] at hin
      omega
    exact pat_congr_of_seven_le hp hright (hrest ⟨p, by omega⟩ (Fin.ne_of_val_ne (Nat.ne_zero_of_lt hright)))
  · have hpos : p = 1 ∨ 7 ≤ p := by
      by_contra hleft
      rw [inPattern_iff_of_le_six (by omega)] at hin
      omega
    obtain rfl | hright := hpos
    · rw [pat_roms_one, pat_roms_one]
      exact congrArg (readPattern roms .L) (hrest 1 (by decide))
    · exact pat_congr_of_seven_le hp hright (hrest ⟨p, by omega⟩ (Fin.ne_of_val_ne (Nat.ne_zero_of_lt hright)))
  · have hpos : p ≠ 12 := by
      rintro rfl
      rw [inPattern_iff_of_seven_le (by decide)] at hin
      omega
    exact pat_congr hp (hrest 0 (by decide)) (hrest ⟨p, by omega⟩ (Fin.ne_of_val_ne hpos))

/-! ### The default barcode determines its code (R100) -/

theorem assemble_eq_of_barcode_eq {R : Roms} {y z : Code} (h : barcode R y = barcode R z) :
    assemble R y = assemble R z := by
  refine List.ext_getElem? fun m => ?_
  by_cases hm : m < 95
  · have hy := modHoldsTheModuleSequence R y ⟨m, hm⟩
    rwa [h, ← modHoldsTheModuleSequence R z] at hy
  · simp [Nat.not_lt.mp hm]

theorem pat_eq_of_barcode_eq {R : Roms} {y z : Code} (h : barcode R y = barcode R z) {i : Nat}
    (hi : 1 ≤ i ∧ i ≤ 12) : pat R y i hi = pat R z i hi := by
  refine BitVec.eq_of_getLsbD_eq fun b hb => ?_
  have hidx : 6 - (6 - b) = b := by omega
  have hy := assemble_getElem?_pattern R y hi (j := 6 - b) (by omega)
  rw [assemble_eq_of_barcode_eq h, assemble_getElem?_pattern R z hi (by omega), hidx] at hy
  exact (Option.some.inj hy).symm

/-- A left-hand entry of the default tables shows its codeset and its digit (R36). -/
theorem readPattern_roms_selector_injective {k k' : Selector} {f g : Digit}
    (h : readPattern roms k.codeset f = readPattern roms k'.codeset g) : k = k' ∧ f = g := by
  cases k <;> cases k'
  · exact ⟨rfl, readPattern_roms_L_injective h⟩
  · exact absurd h (readPattern_roms_L_ne_G f g)
  · exact absurd h.symm (readPattern_roms_L_ne_G g f)
  · exact ⟨rfl, readPattern_roms_G_injective h⟩

theorem selectorOfBit_injective {a b : Bool} (h : selectorOfBit a = selectorOfBit b) : a = b := by
  decide +revert

/-- The six selectors determine the row (R32). -/
theorem parityRow_eq_of_rowSelector_eq {row row' : ParityRow} (h : ∀ k, rowSelector row k = rowSelector row' k) :
    row = row' := by
  refine BitVec.eq_of_getLsbD_eq fun b hb => ?_
  have hidx : 5 - (5 - b) = b := by omega
  simpa [hidx] using selectorOfBit_injective (h ⟨5 - b, by omega⟩)

/-- Settles O40: the left patterns give the selectors, which give the first digit, and every pattern gives its own. -/
theorem defaultBarcodeDeterminesTheCode : Obligations.DefaultBarcodeDeterminesTheCode := by
  intro y z h
  have hleft : ∀ i (hi : 1 ≤ i ∧ i ≤ 6), sel roms y i hi = sel roms z i hi ∧ y[i]'(by omega) = z[i]'(by omega) := by
    intro i hi
    have hpat := pat_eq_of_barcode_eq h ⟨hi.1, by omega⟩
    rw [pat_of_le_six roms y _ hi.2, pat_of_le_six roms z _ hi.2] at hpat
    exact readPattern_roms_selector_injective hpat
  have hright : ∀ i (hi : 7 ≤ i ∧ i ≤ 12), y[i]'(by omega) = z[i]'(by omega) := by
    intro i hi
    have hpat := pat_eq_of_barcode_eq h ⟨by omega, hi.2⟩
    rw [pat_of_seven_le roms y _ hi.1, pat_of_seven_le roms z _ hi.1] at hpat
    exact readPattern_roms_R_injective hpat
  have hfirst : y[0] = z[0] := readParity_roms_injective <| parityRow_eq_of_rowSelector_eq fun k =>
    (hleft (k.val + 1) (by omega)).1
  refine Vector.ext fun i hi => ?_
  obtain rfl | hpos | hpos : i = 0 ∨ (1 ≤ i ∧ i ≤ 6) ∨ (7 ≤ i ∧ i ≤ 12) := by omega
  · exact hfirst
  · exact (hleft i hpos).2
  · exact hright i hpos

end Sys2Proof.Machine
end

section
/-! Proofs of the statements about ENC (`42_encode.md`): its response for each digit count, what a success carries, and
how it is composed of the other operations. -/

namespace Sys2Proof.Machine

/-! ### A transaction depends on its request word (R113) -/

/-- Settles O25: each step completes the transaction of the same word, whatever state it starts from. -/
theorem responseDependsOnTheRequestAlone : Obligations.ResponseDependsOnTheRequestAlone := by
  intro s s' t t' req rest rest' h h'
  rw [step_of_request rfl, Host.Outcome.next.injEq] at h h'
  rw [← h, ← h', State.complete_response, State.complete_response]

/-! ### What operations with the same checks share (R54) -/

/-- Operations with the same checks read the same 12 digits, or all end with `InvalidInput`. -/
theorem withDigits12_uniform (n : Nibble) (d : Latches) :
    (∃ x : Digits12, ∀ use, withDigits12 n d use = use x) ∨ ∀ use, withDigits12 n d use = raise .invalidInput := by
  obtain ⟨x, rfl, hd, -⟩ | ⟨hfail, -⟩ := withDigits12_cases n d fun _ => raise .invalidInput
  · exact .inl ⟨x, fun use => withDigits12_eq use hd⟩
  · refine .inr fun use => withDigits12_eq_raise use ?_
    by_contra! hchecks
    exact hfail hchecks

/-- Operations with the same checks read the same 13 digits, or all end with `InvalidInput`. -/
theorem withDigits13_uniform (n : Nibble) (d : Latches) :
    (∃ y : Code, ∀ use, withDigits13 n d use = use y) ∨ ∀ use, withDigits13 n d use = raise .invalidInput := by
  obtain ⟨y, rfl, hd, -⟩ | ⟨hfail, -⟩ := withDigits13_cases n d fun _ => raise .invalidInput
  · exact .inl ⟨y, fun use => withDigits13_eq use hd⟩
  · refine .inr fun use => withDigits13_eq_raise use ?_
    by_contra! hchecks
    exact hfail hchecks

/-! ### Validating, then mapping (R110) -/

/-- A valid code is mapped as MAP does. -/
theorem encCode_of_valid (R : Roms) {y : Code} (h : valid13 y = true) : encCode R y = mapDigits R y := if_pos h

theorem encCode_of_invalid (R : Roms) {y : Code} (h : valid13 y = false) : encCode R y = raise .checksumMismatch :=
  if_neg (by simp [h])

theorem raise_status_ne_zero (e : ErrorKind) : (raise e).status ≠ 0 := e.code_ne_ok

theorem valid13_of_encCode_status {R : Roms} {y : Code} (h : (encCode R y).status = 0) : valid13 y = true := by
  by_contra hinvalid
  rw [encCode_of_invalid R (Bool.eq_false_of_not_eq_true hinvalid)] at h
  exact raise_status_ne_zero _ h

/-- The append step makes a valid code (R79). -/
theorem valid13_appendCheck (x : Digits12) : valid13 (appendCheck x) = true := (valid13_push_iff x _).mpr rfl

/-! ### The response of ENC, by its digit count (R110) -/

/-- With 12 digits the validation always holds, so ENC is the append step and then MAP's response. -/
theorem encResponse_twelve (R : Roms) (d : Latches) :
    encResponse R 12#4 d = withDigits12 12#4 d fun x => mapDigits R (appendCheck x) := by
  simp only [encResponse, if_true, encCode_of_valid R (valid13_appendCheck _)]

theorem encResponse_of_ne_twelve (R : Roms) {n : Nibble} (hn : n ≠ 12#4) (d : Latches) :
    encResponse R n d = withDigits13 n d (encCode R) := if_neg hn

theorem encResponse_thirteen (R : Roms) (d : Latches) : encResponse R 13#4 d = withDigits13 13#4 d (encCode R) :=
  encResponse_of_ne_twelve R (by decide) d

theorem encResponse_thirteen_of_valid (R : Roms) {d : Latches} {y : Code} (hd : ∀ i : Fin 13, d[i].toNat = y[i].val)
    (hy : valid13 y = true) : encResponse R 13#4 d = mapDigits R y := by
  rw [encResponse_thirteen, withDigits13_eq _ hd, encCode_of_valid R hy]

/-- Settles O14: the transaction completes with MAP's response to the 12 digits and their check digit. -/
theorem encOfTwelveDigitsAppendsAndMaps : Obligations.EncOfTwelveDigitsAppendsAndMaps := by
  intro d x s hd
  rw [exec_eq, instrResponse, encResponse_twelve, withDigits12_eq _ hd]
  rfl

/-- Settles O15: the transaction completes with MAP's response to the digits. -/
theorem encOfThirteenValidDigitsMaps : Obligations.EncOfThirteenValidDigitsMaps := by
  intro d y s hd hsum
  rw [exec_eq, instrResponse, encResponse_thirteen_of_valid roms hd ((valid13_iff_wsum13 y).mpr hsum)]
  rfl

/-- Settles O16: the digits are read and fail the validation. -/
theorem encRejectsFailingChecksum : Obligations.EncRejectsFailingChecksum := by
  intro d y s hd hinvalid
  rw [exec_eq, instrResponse, encResponse_thirteen, withDigits13_eq _ hd, encCode_of_invalid roms hinvalid]
  rfl

/-! ### What a successful ENC carries (R110, D8) -/

/-- Everything ENC can answer: the response of some code, read or completed, or `InvalidInput`. -/
theorem encResponse_cases (R : Roms) (n : Nibble) (d : Latches) :
    (∃ y : Code, encResponse R n d = encCode R y) ∨ encResponse R n d = raise .invalidInput := by
  by_cases hn : n = 12#4
  · rw [encResponse, if_pos hn]
    obtain ⟨x, hread⟩ | hread := withDigits12_uniform n d
    · exact .inl ⟨appendCheck x, hread _⟩
    · exact .inr (hread _)
  · rw [encResponse_of_ne_twelve R hn]
    obtain ⟨y, hread⟩ | hread := withDigits13_uniform n d
    · exact .inl ⟨y, hread _⟩
    · exact .inr (hread _)

/-- A success of ENC is MAP's response to a valid code. -/
theorem encResponse_of_status_zero {R : Roms} {n : Nibble} {d : Latches} (h : (encResponse R n d).status = 0) :
    ∃ y : Code, valid13 y = true ∧ encResponse R n d = mapDigits R y := by
  obtain ⟨y, henc⟩ | henc := encResponse_cases R n d <;> rw [henc] at h ⊢
  · have hy := valid13_of_encCode_status h
    exact ⟨y, hy, encCode_of_valid R hy⟩
  · exact absurd h (raise_status_ne_zero _)

/-- Settles O27: the code is the one whose response ENC answers. -/
theorem encOutputsOnlyValidCodes : Obligations.EncOutputsOnlyValidCodes := by
  intro R n d hstatus
  obtain ⟨y, hy, henc⟩ := encResponse_of_status_zero hstatus
  rw [henc]
  exact ⟨y, (valid13_iff_wsum13 y).mp hy, rfl, rfl⟩

/-! ### Encoding a label again (R111) -/

/-- The nibbles of a label are operands that hold the digits of its code. -/
theorem labelLatches_labelWord (y : Code) (i : Fin 13) : (labelLatches (labelWord y))[i].toNat = y[i].val := by
  rw [labelLatches, Fin.getElem_fin, Vector.getElem_ofFn, labelNibble_labelWord, Fin.getElem_fin]

theorem respond_of_op_enc (R : Roms) {req : RequestWord} (h : opField req = 1#4) :
    respond R req = encResponse R (lenField req) (loadLatches req) := by
  rw [respond_eq_by_op, if_pos h]

theorem encResponse_twelve_status (R : Roms) {d : Latches} (hd : ∀ i : Fin 13, i.val < 12 → d[i].toNat ≤ 9) :
    (encResponse R 12#4 d).status = 0 := by
  rw [encResponse_twelve]
  obtain ⟨x, -, -, h⟩ | ⟨hfail, -⟩ := withDigits12_cases 12#4 d fun x => mapDigits R (appendCheck x)
  · rw [h, mapDigits, succeed_status]
  · exact absurd ⟨rfl, fun i => hd (i.castLE (by omega)) i.isLt⟩ hfail

/-- Settles O44: the label of a success holds the digits of a valid code, and ENC of those is the same response. -/
theorem reencodingTheLabelReproducesTheResponse : Obligations.ReencodingTheLabelReproducesTheResponse := by
  intro R req hop
  rw [respond_of_op_enc R hop]
  refine ⟨fun hlen hd => ?_, fun hstatus => ?_⟩
  · rw [hlen]
    exact encResponse_twelve_status R hd
  · obtain ⟨y, hy, henc⟩ := encResponse_of_status_zero hstatus
    rw [henc, respond_of_op_enc R (opField_packRequest ..), lenField_packRequest, loadLatches_packRequest]
    exact encResponse_thirteen_of_valid R (labelLatches_labelWord y) hy

/-! ### ENC as a composition (R114) -/

/-- VFY is ENC of 13 digits without the modules. -/
theorem vfyResponse_eq_encResponse_without_mod (R : Roms) (d : Latches) :
    vfyResponse 13#4 d = { encResponse R 13#4 d with mod := 0 } := by
  rw [encResponse_thirteen, vfyResponse]
  obtain ⟨y, hread⟩ | hread := withDigits13_uniform 13#4 d <;> rw [hread, hread]
  · unfold vfyDigits encCode
    split <;> rfl
  · rfl

/-- CHK is ENC of 12 digits without the modules. -/
theorem chkResponse_eq_encResponse_without_mod (R : Roms) (d : Latches) :
    chkResponse 12#4 d = { encResponse R 12#4 d with mod := 0 } := by
  rw [encResponse_twelve, chkResponse]
  obtain ⟨x, hread⟩ | hread := withDigits12_uniform 12#4 d <;> rw [hread, hread] <;> rfl

/-- A success of ENC with 13 digits is MAP's response. -/
theorem encResponse_thirteen_eq_mapResponse {R : Roms} {d : Latches} (h : (encResponse R 13#4 d).status = 0) :
    encResponse R 13#4 d = mapResponse R 13#4 d := by
  rw [encResponse_thirteen] at h ⊢
  rw [mapResponse]
  obtain ⟨y, hread⟩ | hread := withDigits13_uniform 13#4 d <;> rw [hread, hread]
  rw [hread] at h
  exact encCode_of_valid R (valid13_of_encCode_status h)

/-- A success of ENC is MAP's response to its label. -/
theorem encResponse_eq_mapResponse_label {R : Roms} {n : Nibble} {d : Latches} (h : (encResponse R n d).status = 0) :
    encResponse R n d = mapResponse R 13#4 (labelLatches (encResponse R n d).label) := by
  obtain ⟨y, -, henc⟩ := encResponse_of_status_zero h
  rw [henc]
  exact (withDigits13_eq (mapDigits R) (labelLatches_labelWord y)).symm

/-- Where VFY reads its digits, so does MAP, which rejects none. -/
theorem mapResponse_status_of_vfyResponse_status (R : Roms) {n : Nibble} {d : Latches}
    (h : (vfyResponse n d).status = 0 ∨ (vfyResponse n d).status = 2) : (mapResponse R n d).status = 0 := by
  rw [vfyResponse] at h
  obtain ⟨y, hread⟩ | hread := withDigits13_uniform n d
  · rw [mapResponse, hread, mapDigits, succeed_status]
  · rw [hread, raise_status] at h
    exact absurd h (by decide)

/-- Settles O45: VFY and CHK show the status and label of ENC, whose successes are responses of MAP. -/
theorem operationsCompose : Obligations.OperationsCompose := by
  intro R d
  rw [vfyResponse_eq_encResponse_without_mod R d, chkResponse_eq_encResponse_without_mod R d]
  exact ⟨Iff.rfl, fun h => ⟨congrArg Response.mod (encResponse_thirteen_eq_mapResponse h), rfl⟩,
    Iff.rfl, fun h => ⟨rfl, congrArg Response.mod (encResponse_eq_mapResponse_label h)⟩,
    fun _ => mapResponse_status_of_vfyResponse_status R⟩

end Sys2Proof.Machine
end

section
/-! Proofs of the statements about the errors (`60_exceptions.md`): when `ChecksumMismatch` is raised, which outcome
comes first, and what an error leaves. -/

namespace Sys2Proof

/-- ENC of 13 digits or VFY, on digits that pass the input checks and fail the validation (R122). -/
def Instr.FailsValidation (i : Instr) : Prop :=
  ∃ (d : Latches) (y : Code), (i = .enc 13#4 d ∨ i = .vfy 13#4 d) ∧
    (∀ p : Fin 13, d[p].toNat = y[p].val) ∧ Machine.wsum13 y % 10 ≠ 0

end Sys2Proof

namespace Sys2Proof.Machine

theorem eq_complete_of_exec {i : Instr} {s t : State} (h : exec i s = .next t) :
    t = s.complete (instrResponse roms i) := by
  rw [exec_eq, Host.Outcome.next.injEq] at h
  exact h.symm

/-! ### `ChecksumMismatch` (R122) -/

theorem exists_digits12_of_status_two {n : Nibble} {d : Latches} {use : Digits12 → Response}
    (h : (withDigits12 n d use).status = 2) : ∃ x : Digits12, (use x).status = 2 := by
  obtain ⟨x, hread⟩ | hread := withDigits12_uniform n d <;> rw [hread] at h
  · exact ⟨x, h⟩
  · exact absurd h (by decide)

theorem exists_code_of_status_two {n : Nibble} {d : Latches} {use : Code → Response}
    (h : (withDigits13 n d use).status = 2) :
    ∃ y : Code, n = 13#4 ∧ (∀ p : Fin 13, d[p].toNat = y[p].val) ∧ (use y).status = 2 := by
  obtain ⟨y, hn, hd, hread⟩ | ⟨-, hread⟩ := withDigits13_cases n d use <;> rw [hread] at h
  · exact ⟨y, hn, hd, h⟩
  · exact absurd h (by decide)

theorem chkResponse_status_ne_two (n : Nibble) (d : Latches) : (chkResponse n d).status ≠ 2 := by
  intro h
  obtain ⟨x, hx⟩ := exists_digits12_of_status_two h
  simp [chkDigits] at hx

theorem mapResponse_status_ne_two (R : Roms) (n : Nibble) (d : Latches) : (mapResponse R n d).status ≠ 2 := by
  intro h
  obtain ⟨y, -, -, hy⟩ := exists_code_of_status_two h
  simp [mapDigits] at hy

/-- The check digit that ENC appends never fails the validation (R79). -/
theorem encResponse_twelve_status_ne_two (R : Roms) (d : Latches) : (encResponse R 12#4 d).status ≠ 2 := by
  intro h
  rw [encResponse_twelve] at h
  obtain ⟨x, hx⟩ := exists_digits12_of_status_two h
  simp [mapDigits] at hx

theorem vfyDigits_status_eq_two_iff (y : Code) : (vfyDigits y).status = 2 ↔ wsum13 y % 10 ≠ 0 := by
  by_cases h : wsum13 y % 10 = 0
  · simp [vfyDigits_of_valid h, h]
  · simp [vfyDigits_of_invalid h, h, ErrorKind.code]

theorem encCode_status_eq_vfyDigits_status (R : Roms) (y : Code) : (encCode R y).status = (vfyDigits y).status := by
  unfold encCode vfyDigits
  split <;> rfl

theorem encCode_status_eq_two_iff (R : Roms) (y : Code) : (encCode R y).status = 2 ↔ wsum13 y % 10 ≠ 0 := by
  rw [encCode_status_eq_vfyDigits_status, vfyDigits_status_eq_two_iff]

theorem failsValidation_of_status_two {R : Roms} {i : Instr} (h : (instrResponse R i).status = 2) :
    i.FailsValidation := by
  cases i with
  | enc n d =>
    have hn : n ≠ 12#4 := fun hn => encResponse_twelve_status_ne_two R d (hn ▸ h)
    rw [instrResponse, encResponse_of_ne_twelve R hn] at h
    obtain ⟨y, rfl, hd, hy⟩ := exists_code_of_status_two h
    exact ⟨d, y, .inl rfl, hd, (encCode_status_eq_two_iff R y).mp hy⟩
  | map n d => exact absurd h (mapResponse_status_ne_two R n d)
  | chk n d => exact absurd h (chkResponse_status_ne_two n d)
  | vfy n d =>
    obtain ⟨y, rfl, hd, hy⟩ := exists_code_of_status_two h
    exact ⟨d, y, .inr rfl, hd, (vfyDigits_status_eq_two_iff y).mp hy⟩

/-- An instruction ends with `ChecksumMismatch` exactly when it reads its digits and they fail the validation. -/
theorem instrResponse_status_eq_two_iff (R : Roms) (i : Instr) :
    (instrResponse R i).status = 2 ↔ i.FailsValidation := by
  refine ⟨failsValidation_of_status_two, ?_⟩
  rintro ⟨d, y, rfl | rfl, hd, hsum⟩
  · rw [instrResponse, encResponse_thirteen, withDigits13_eq _ hd]
    exact (encCode_status_eq_two_iff R y).mpr hsum
  · rw [instrResponse, vfyResponse, withDigits13_eq _ hd]
    exact (vfyDigits_status_eq_two_iff y).mpr hsum

/-- Settles O21: `STATUS` is that of the instruction's response. -/
theorem checksumMismatchExactly : Obligations.ChecksumMismatchExactly := by
  intro i s t hexec
  rw [eq_complete_of_exec hexec, State.complete_status]
  exact instrResponse_status_eq_two_iff roms i

/-! ### The order of the outcomes (R125) -/

theorem nibbleSum13_eq_wsum13 {d : Latches} {y : Code} (h : ∀ p : Fin 13, d[p].toNat = y[p].val) :
    nibbleSum13 d = wsum13 y := by
  have hdigit (p : Nat) (hp : p < 13) : d[p].toNat = y[p].val := h ⟨p, hp⟩
  simp only [nibbleSum13, wsum13, hdigit]

theorem exists_code_of_digits {d : Latches} (h : ∀ p : Fin 13, d[p].toNat ≤ 9) :
    ∃ y : Code, ∀ p : Fin 13, d[p].toNat = y[p].val := by
  cases hread : readDigits 13 d with
  | some y => exact ⟨y, readDigits_eq_some.mp hread⟩
  | none => exact absurd h (readDigits_eq_none.mp hread)

/-- ENC of 13 digits has the checks of MAP. -/
theorem wellFormed_enc_of_thirteen (d : Latches) : (Instr.enc 13#4 d).wellFormed = (Instr.map 13#4 d).wellFormed := rfl

/-- Failing the validation, in the terms of the checks on the nibbles. -/
theorem failsValidation_iff (i : Instr) :
    i.FailsValidation ↔ i.wellFormed = true ∧ i.mustValidate = true ∧ nibbleSum13 i.digits % 10 ≠ 0 := by
  constructor
  · rintro ⟨d, y, hi, hd, hsum⟩
    have hwf : (Instr.map 13#4 d).wellFormed = true :=
      (wellFormed_map_iff _ d).mpr ⟨rfl, fun p => hd p ▸ Nat.le_of_lt_succ y[p].isLt⟩
    rw [← nibbleSum13_eq_wsum13 hd] at hsum
    obtain rfl | rfl := hi
    · exact ⟨wellFormed_enc_of_thirteen d ▸ hwf, rfl, hsum⟩
    · exact ⟨hwf, rfl, hsum⟩
  · rintro ⟨hwf, hvalidate, hsum⟩
    cases i with
    | enc n d =>
      obtain rfl : n = 13#4 := (eq_thirteen_iff n).mpr (beq_iff_eq.mp hvalidate)
      rw [wellFormed_enc_of_thirteen] at hwf
      obtain ⟨y, hd⟩ := exists_code_of_digits ((wellFormed_map_iff _ d).mp hwf).2
      exact ⟨d, y, .inl rfl, hd, nibbleSum13_eq_wsum13 hd ▸ hsum⟩
    | map n d => exact absurd hvalidate Bool.false_ne_true
    | chk n d => exact absurd hvalidate Bool.false_ne_true
    | vfy n d =>
      obtain ⟨rfl, hdigits⟩ := (wellFormed_map_iff n d).mp hwf
      obtain ⟨y, hd⟩ := exists_code_of_digits hdigits
      exact ⟨d, y, .inr rfl, hd, nibbleSum13_eq_wsum13 hd ▸ hsum⟩

/-- The status of an instruction is the first outcome that applies. -/
theorem instrResponse_status (R : Roms) (i : Instr) :
    (instrResponse R i).status =
      if i.wellFormed = false then 1
      else if i.mustValidate = true ∧ nibbleSum13 i.digits % 10 ≠ 0 then 2
      else 0 := by
  have hchecks := instrResponse_followsChecks R i
  have hmismatch := (instrResponse_status_eq_two_iff R i).trans (failsValidation_iff i)
  cases hwf : i.wellFormed with
  | false => simp [hchecks.rejected hwf, ErrorKind.code]
  | true =>
    rw [if_neg (by decide)]
    split
    next hfails => exact hmismatch.mpr ⟨hwf, hfails⟩
    next hpasses => exact (hchecks.accepted hwf).resolve_right fun h => hpasses (hmismatch.mp h).2

/-- Settles O22, by what the word decodes to. -/
theorem statusIsTheFirstThatApplies : Obligations.StatusIsTheFirstThatApplies := by
  intro R req
  unfold respond
  cases decode req with
  | instr i => exact instrResponse_status R i
  | reservedOp op => rfl

/-! ### What an error leaves (R124) -/

/-- Settles O23: the response of every instruction is sound, so with an error it shows no label and no modules. -/
theorem errorLeavesOnlyItsCode : Obligations.ErrorLeavesOnlyItsCode := by
  refine ⟨fun i s t hexec herror => ?_, fun _ => rfl⟩
  obtain rfl := eq_complete_of_exec hexec
  obtain ⟨hlabel, hmod⟩ := (instrResponse_sound i).noPartial herror
  rw [State.complete, hlabel, hmod]

end Sys2Proof.Machine
end

section
/-! Proofs of the statements about hazards, timing and the end of a run (`70_reset_and_hazards.md`): every step completes,
what the host reads in a run, and the state a run ends in. -/

namespace Sys2Proof.Machine

/-! ### Every step completes (R150) -/

/-- Settles O4: each of the three kinds of step answers a next state, with the rest of the inputs. -/
theorem everyStepCompletes : Obligations.EveryStepCompletes := by
  intro s
  obtain ⟨hin, hstep⟩ | ⟨rest, hin, hstep⟩ | ⟨req, rest, hin, hstep⟩ := step_cases s
  · exact ⟨s, hstep, by rw [hin, List.tail_nil]⟩
  · exact ⟨_, hstep, by rw [hin, List.tail_cons]⟩
  · exact ⟨_, hstep, by rw [hin, List.tail_cons, State.complete_inputs]⟩

/-! ### The first step of a run -/

theorem observe_succ {s t : State} (h : step s = .next t) (k : Nat) :
    observe (k + 1) s = t.response :: observe k t := by
  rw [observe, h]

theorem run_succ {s t : State} (h : step s = .next t) (k : Nat) : core.run (k + 1) s = core.run k t := by
  have hcore : core.step s = .next t := h
  simp only [Host.Core.run, hcore]

/-- The transaction of the first request leaves the run of the others to do, from the completed state. -/
theorem step_of_requests (s : State) (req : RequestWord) (reqs : List RequestWord) :
    step { s with inputs := (req :: reqs).map .request } =
      .next { s.complete (respond roms req) with inputs := reqs.map .request } :=
  step_of_request rfl

/-! ### The observation and the end of a run (R149) -/

/-- Settles O48, by induction on the requests: the host reads the response of the first, and the rest is a run from the
completed state. -/
theorem runObservesTheResponses : Obligations.RunObservesTheResponses := by
  intro s reqs
  induction reqs generalizing s with
  | nil => rfl
  | cons req reqs ih =>
    rw [List.length_cons, observe_succ (step_of_requests s req reqs), ih, List.map_cons]
    rfl

/-- Settles O49, by induction on the requests: a completion writes every register, so only the last one counts. -/
theorem runEndsWithTheLastResponse : Obligations.RunEndsWithTheLastResponse := by
  intro s reqs
  induction reqs generalizing s with
  | nil => rfl
  | cons req reqs ih =>
    rw [List.length_cons, run_succ (step_of_requests s req reqs)]
    cases reqs with
    | nil => rfl
    | cons second others =>
      rw [List.getLast?_cons_cons]
      exact ih (s.complete (respond roms req))

end Sys2Proof.Machine
end

section
/-! The step with nothing presented (`10_state.md` section 4, D22; the model's choice). -/

namespace Sys2Proof.Machine

/-- Settles O3: of the three kinds of step, a reset and a transaction take an input, and none is presented. -/
theorem idleStepChangesNothing : Obligations.IdleStepChangesNothing := by
  intro s hidle
  obtain ⟨-, hstep⟩ | ⟨rest, hin, -⟩ | ⟨req, rest, hin, -⟩ := step_cases s
  · exact hstep
  · simp [hidle] at hin
  · simp [hidle] at hin

end Sys2Proof.Machine
end
